-- ==== Sys2Proof/Word.lean ====
section
/-! DEFINITION. The two sizes of data the hardware has: the byte and the 32-bit word (R7, R8 of 00_scope.md). -/

namespace Sys2Proof

/-- A byte: an unsigned integer in 0..255 (R8). -/
abbrev Byte := BitVec 8

/-- A word: an unsigned integer in 0..2^32-1, bit 0 the least significant (R8). -/
abbrev Word := BitVec 32

end Sys2Proof
end

