-- ==== Sys2Proof/Config.lean ====
section
/-! DEFINITION. What an implementation fixes (R7 of 00_scope.md, D8) and the free values, which have no body: no proof can
see what they are, so a claim holds whatever they are. -/

namespace Sys2Proof

/-- `MSG_BYTES`, the capacity of the message memory (R67, D8): `none` is the spec's default, unbounded, "the only value
under which 'every length is valid' holds literally". `LW` and `BW` have their default by MLEN and BLK being natural
numbers. Log 9. -/
def Config.msgBytes : Option Nat := none

/-- FREE VALUE. Whether, at the instant after the `n`-th, the host's acceptable operation goes before the sequencer's
enabled micro-operation: "the order between the two is not fixed" (R220, R243, U12). Log 1. -/
opaque Config.hostFirst : Nat → Bool

/-- FREE VALUE. What the reset input asserted at instant `n` leaves in data register `k` (0..3 is H, 4..7 is W, 8..23 is
X): unspecified (R34, R260, U2, U15). Log 7. -/
opaque Config.unspecified : Nat → Nat → Word

end Sys2Proof
end

