-- ==== Sys2Proof/Syntax.lean ====
section
/-! DEFINITION. Instructions as syntax: one constructor for each of the 58 rows of spec/opcode_table.json, the 51
micro-operations of the sequencer (R82 of 30_encoding.md) and the 7 operations of the host (R85), and the two forms in
which they are encoded. -/

namespace Sys2Proof

/-- The two agents that perform operations (R80, R220). -/
inductive Agent
  | sequencer
  | host
deriving DecidableEq, Repr

/-- The instructions. A micro-operation has no operand (R83, R90); a host operation carries its operand ports (R84). -/
inductive Instr
  | halt
  | ldblk
  | ff0
  | ff1
  | ff2
  | ff3
  | ff4
  | ff5
  | ff6
  | ff7
  | ff8
  | ff9
  | ff10
  | ff11
  | ff12
  | ff13
  | ff14
  | ff15
  | gg0
  | gg1
  | gg2
  | gg3
  | gg4
  | gg5
  | gg6
  | gg7
  | gg8
  | gg9
  | gg10
  | gg11
  | gg12
  | gg13
  | gg14
  | gg15
  | hh0
  | hh1
  | hh2
  | hh3
  | hh4
  | hh5
  | hh6
  | hh7
  | hh8
  | hh9
  | hh10
  | hh11
  | hh12
  | hh13
  | hh14
  | hh15
  | feed
  | nop
  | wrlen (len : Nat)
  | wrmsg (addr : Nat) (byte : Byte)
  | start
  | rdstat
  | rdh (idx : BitVec 4)
  | rddig (idx : BitVec 4)
deriving DecidableEq, Repr

/-- Which agent performs the instruction (R80). -/
def Instr.agent : Instr → Agent
  | .halt | .ldblk | .feed => .sequencer
  | .ff0 | .ff1 | .ff2 | .ff3 | .ff4 | .ff5 | .ff6 | .ff7 | .ff8 | .ff9 | .ff10 | .ff11 | .ff12 | .ff13 | .ff14 | .ff15 => .sequencer
  | .gg0 | .gg1 | .gg2 | .gg3 | .gg4 | .gg5 | .gg6 | .gg7 | .gg8 | .gg9 | .gg10 | .gg11 | .gg12 | .gg13 | .gg14 | .gg15 => .sequencer
  | .hh0 | .hh1 | .hh2 | .hh3 | .hh4 | .hh5 | .hh6 | .hh7 | .hh8 | .hh9 | .hh10 | .hh11 | .hh12 | .hh13 | .hh14 | .hh15 => .sequencer
  | .nop | .wrlen _ | .wrmsg _ _ | .start | .rdstat | .rdh _ | .rddig _ => .host

/-- Format `HOST` (R84): the 3-bit code HOP and the operand ports, as the host drives them. -/
structure HostWord where
  hop   : BitVec 3
  hlen  : Nat
  haddr : Nat
  hbyte : Byte
  hidx  : BitVec 4
deriving DecidableEq, Repr

/-- An encoded instruction in one of the two formats: a value of the sequencer word SEQ (R81), or what stands at the
host port (R84). -/
inductive Code
  | seq  (word : BitVec 8)
  | host (word : HostWord)
deriving DecidableEq, Repr

/-- The agent that reads codes of this format. -/
def Code.agent : Code → Agent
  | .seq _ => .sequencer
  | .host _ => .host

end Sys2Proof
end

