-- ==== Sys2Proof/WellFormed.lean ====
section
/-! DEFINITION. Which instructions are well formed: those with an encoding that is not reserved (R86 of 30_encoding.md). The
widths of the other operands are their types (HBYTE 8 bits, HIDX 4 bits, R84), and HLEN and HADDR are unbounded (D8). -/

namespace Sys2Proof

/-- R86 (b): RDH has the indices 0..3; 4..15 are reserved. Every other instruction is well formed for every operand. -/
def Instr.wellFormed : Instr → Bool
  | .rdh idx => decide (idx.toNat < 4)
  | .rddig _ | .nop | .wrlen _ | .wrmsg _ _ | .start | .rdstat => true
  | .halt | .ldblk | .feed => true
  | .ff0 | .ff1 | .ff2 | .ff3 | .ff4 | .ff5 | .ff6 | .ff7 | .ff8 | .ff9 | .ff10 | .ff11 | .ff12 | .ff13 | .ff14 | .ff15 => true
  | .gg0 | .gg1 | .gg2 | .gg3 | .gg4 | .gg5 | .gg6 | .gg7 | .gg8 | .gg9 | .gg10 | .gg11 | .gg12 | .gg13 | .gg14 | .gg15 => true
  | .hh0 | .hh1 | .hh2 | .hh3 | .hh4 | .hh5 | .hh6 | .hh7 | .hh8 | .hh9 | .hh10 | .hh11 | .hh12 | .hh13 | .hh14 | .hh15 => true

end Sys2Proof
end

