-- ==== Sys2Proof/Decode.lean ====
section
/-! DEFINITION. Decoding, total (R92 of 30_encoding.md), and after it the encoder. Decoding takes SEQ apart into its fields as
R81 lays them out; the encoder writes the codes of the tables of R82, R83 and R85, so that the round trip holds the two
readings of the spec against each other. -/

namespace Sys2Proof

/-- Why a code is no instruction (R86). -/
inductive Reserved
  /-- one of the 205 reserved values of SEQ, R86 (a) -/
  | seq
  /-- HOP = `0b111`, R86 (b) -/
  | hop
  /-- RDH with HIDX in 4..15, R86 (b) -/
  | hidx
deriving DecidableEq, Repr

/-- What decoding answers: "every 8-bit SEQ value is either one of the 51 micro-operations or reserved, and every 3-bit
HOP value is either one of the 7 host operations or reserved" (R92). -/
inductive Decoded
  | instr (i : Instr)
  | reserved (why : Reserved)
deriving DecidableEq, Repr

/-- The instruction decoded, if there is one. -/
def Decoded.toOption : Decoded → Option Instr
  | .instr i => some i
  | .reserved _ => none

/-- SEQ[7:6], the phase (R25, R81): 0 HALT, 1 LOAD, 2 ROUNDS, 3 FEED. -/
def seqPhase (b : BitVec 8) : BitVec 2 := b.extractLsb' 6 2

/-- SEQ[5:4]: in phase ROUNDS the round minus one (R81). -/
def seqRound (b : BitVec 8) : BitVec 2 := b.extractLsb' 4 2

/-- SEQ[3:0]: in phase ROUNDS the step index n (R81). -/
def seqIndex (b : BitVec 8) : BitVec 4 := b.extractLsb' 0 4

/-- The steps of round 1 in the order of their index (R82: `FF.n` is `1000nnnn`). -/
def round1Steps : Vector Instr 16 :=
  #v[.ff0, .ff1, .ff2, .ff3, .ff4, .ff5, .ff6, .ff7, .ff8, .ff9, .ff10, .ff11, .ff12, .ff13, .ff14, .ff15]

/-- The steps of round 2 in the order of their index (R82: `GG.n` is `1001nnnn`). -/
def round2Steps : Vector Instr 16 :=
  #v[.gg0, .gg1, .gg2, .gg3, .gg4, .gg5, .gg6, .gg7, .gg8, .gg9, .gg10, .gg11, .gg12, .gg13, .gg14, .gg15]

/-- The steps of round 3 in the order of their index (R82: `HH.n` is `1010nnnn`). -/
def round3Steps : Vector Instr 16 :=
  #v[.hh0, .hh1, .hh2, .hh3, .hh4, .hh5, .hh6, .hh7, .hh8, .hh9, .hh10, .hh11, .hh12, .hh13, .hh14, .hh15]

/-- The micro-operation of round `r` (0 is round 1) and step index `n` (R12). -/
def stepInstr (r : Fin 3) (n : Fin 16) : Instr :=
  match r with
  | 0 => round1Steps[n]
  | 1 => round2Steps[n]
  | 2 => round3Steps[n]

/-- The micro-operation that SEQ selects (R81, R82): phase ROUNDS takes its round and index, `rnd = 0b11` is reserved
there, and in the other phases both fields "must be" zero. -/
def decodeSeq (b : BitVec 8) : Decoded :=
  match (seqPhase b).toNat with
  | 0 => if b.extractLsb' 0 6 = 0 then .instr .halt else .reserved .seq
  | 1 => if b.extractLsb' 0 6 = 0 then .instr .ldblk else .reserved .seq
  | 2 => if h : (seqRound b).toNat < 3 then .instr (stepInstr ⟨(seqRound b).toNat, h⟩ (seqIndex b).toFin)
         else .reserved .seq
  | _ => if b.extractLsb' 0 6 = 0 then .instr .feed else .reserved .seq

/-- The host operation at the port (R85). "A port that an operation does not use is ignored by it" (R84). -/
def decodeHost (w : HostWord) : Decoded :=
  match w.hop.toNat with
  | 0 => .instr .nop
  | 1 => .instr (.wrlen w.hlen)
  | 2 => .instr (.wrmsg w.haddr w.hbyte)
  | 3 => .instr .start
  | 4 => .instr .rdstat
  | 5 => if w.hidx.toNat < 4 then .instr (.rdh w.hidx) else .reserved .hidx
  | 6 => .instr (.rddig w.hidx)
  | _ => .reserved .hop

/-- Decoding of a code of either format. -/
def decode : Code → Decoded
  | .seq b => decodeSeq b
  | .host w => decodeHost w

/-- A host code with the given HOP and every operand port zero. -/
def hostCode (hop : BitVec 3) : HostWord := { hop := hop, hlen := 0, haddr := 0, hbyte := 0, hidx := 0 }

/-- Which of the two formats a number of spec/opcode_table.json is read in, when only its bits and their count are
given. The table's SEQ rows have 8 bits and its HOST rows 3, so a count of 3 or fewer is a host operation; a count of 8
does not tell them apart (a HOST row filled up to a whole byte looks like a reserved SEQ value), so there a value SEQ has
is a micro-operation, and a reserved one below 8 is a HOP code. The machine never uses this reading: the sequencer reads
SEQ with `decodeSeq`, the host port is read with `decodeHost`. Log 14. -/
def tableCode (nbits w : Nat) : Option Code :=
  if nbits ≤ 3 then
    if w < 8 then some (.host (hostCode (BitVec.ofNat 3 w))) else none
  else if w < 256 then
    match decodeSeq (BitVec.ofNat 8 w) with
    | .instr _ => some (.seq (BitVec.ofNat 8 w))
    | .reserved _ => if w < 8 then some (.host (hostCode (BitVec.ofNat 3 w))) else none
  else none

/-- The instruction the decoder reads from an instruction whose bits are `w` (bit 0 of the table is bit 0 of `w`; every
operand port is zero). -/
def decodeTableWord (nbits w : Nat) : Option Instr :=
  match tableCode nbits w with
  | some c => (decode c).toOption
  | none => none

/-- The code of an instruction, from the match column of R82 and R83 and the HOP column of R85; unused ports are 0. -/
def encode : Instr → Code
  | .halt => .seq 0x00
  | .ldblk => .seq 0x40
  | .ff0 => .seq 0x80
  | .ff1 => .seq 0x81
  | .ff2 => .seq 0x82
  | .ff3 => .seq 0x83
  | .ff4 => .seq 0x84
  | .ff5 => .seq 0x85
  | .ff6 => .seq 0x86
  | .ff7 => .seq 0x87
  | .ff8 => .seq 0x88
  | .ff9 => .seq 0x89
  | .ff10 => .seq 0x8A
  | .ff11 => .seq 0x8B
  | .ff12 => .seq 0x8C
  | .ff13 => .seq 0x8D
  | .ff14 => .seq 0x8E
  | .ff15 => .seq 0x8F
  | .gg0 => .seq 0x90
  | .gg1 => .seq 0x91
  | .gg2 => .seq 0x92
  | .gg3 => .seq 0x93
  | .gg4 => .seq 0x94
  | .gg5 => .seq 0x95
  | .gg6 => .seq 0x96
  | .gg7 => .seq 0x97
  | .gg8 => .seq 0x98
  | .gg9 => .seq 0x99
  | .gg10 => .seq 0x9A
  | .gg11 => .seq 0x9B
  | .gg12 => .seq 0x9C
  | .gg13 => .seq 0x9D
  | .gg14 => .seq 0x9E
  | .gg15 => .seq 0x9F
  | .hh0 => .seq 0xA0
  | .hh1 => .seq 0xA1
  | .hh2 => .seq 0xA2
  | .hh3 => .seq 0xA3
  | .hh4 => .seq 0xA4
  | .hh5 => .seq 0xA5
  | .hh6 => .seq 0xA6
  | .hh7 => .seq 0xA7
  | .hh8 => .seq 0xA8
  | .hh9 => .seq 0xA9
  | .hh10 => .seq 0xAA
  | .hh11 => .seq 0xAB
  | .hh12 => .seq 0xAC
  | .hh13 => .seq 0xAD
  | .hh14 => .seq 0xAE
  | .hh15 => .seq 0xAF
  | .feed => .seq 0xC0
  | .nop => .host (hostCode 0b000)
  | .wrlen len => .host { hostCode 0b001 with hlen := len }
  | .wrmsg addr byte => .host { hostCode 0b010 with haddr := addr, hbyte := byte }
  | .start => .host (hostCode 0b011)
  | .rdstat => .host (hostCode 0b100)
  | .rdh idx => .host { hostCode 0b101 with hidx := idx }
  | .rddig idx => .host { hostCode 0b110 with hidx := idx }

/-- What the host drives onto its port to issue a host operation (for a micro-operation, which "the host cannot issue"
(R88), an idle port, NOP). -/
def hostWordOf (i : Instr) : HostWord :=
  match encode i with
  | .host w => w
  | .seq _ => hostCode 0b000

end Sys2Proof
end

