-- ==== Sys2Proof/Machine/State.lean ====
section
/-! DEFINITION. The state of one MD4 CORE with its host port and its reset input, as plain data (R20 of 10_state.md, R84 of
30_encoding.md, R260 of 70_reset_and_hazards.md), the reasons a step can stop, and the state after reset. -/

namespace Sys2Proof.Machine

open Sys2Proof

/-- The message memory MSG (R50, R51): the written bytes with their addresses, the addresses strictly rising. An address
that is not listed is unwritten and has no value (R34, R37); so no entry can equal what an unlisted address reads as. -/
abbrev Memory := List Host.Cell

/-- The canonical form of MSG: addresses strictly rising. -/
def Memory.wf : Memory → Bool
  | [] => true
  | [_] => true
  | (a, _) :: (a', b') :: rest => decide (a < a') && Memory.wf ((a', b') :: rest)

/-- One assertion of the reset input (R260, R270): how many instants pass before it, counted from the present one or from
the reset before, and what the host issues once it has been reset. Log 7. -/
structure ResetInput where
  wait      : Nat
  thenIssue : List HostWord
deriving DecidableEq, Repr

/-- The state (R20). `h`, `w`, `x`, `seq`, `blk`, `mlen`, `done` and `msg` are the spec's state under its own names. -/
structure State where
  /-- `H[0..3]`: A, B, C, D, the chaining state; after the last block, the digest (R21). -/
  h : Vector Word 4
  /-- `W[0..3]`: the working registers (R23). -/
  w : Vector Word 4
  /-- `X[0..15]`: the words of the block in progress (R24). -/
  x : Vector Word 16
  /-- `SEQ`: phase and step number, the program counter (R25). -/
  seq : BitVec 8
  /-- `BLK`: the index of the block in progress (R26); a natural number, `BW` unbounded (D8). -/
  blk : Nat
  /-- `MLEN`: the message length in bytes (R27); a natural number, `LW` unbounded (D8). -/
  mlen : Nat
  /-- `DONE`: H holds a finished digest (R29). -/
  done : Bool
  /-- `MSG`: the message bytes (R28, R51). -/
  msg : Memory
  /-- `HRES`, the result port (R84): the result of the operation accepted last, none if it returns nothing (U13). Log 5. -/
  hres : Option Word
  /-- The host port (R84, R220): the pending operation first, then those the host issues after it, in order. Log 2. -/
  port : List HostWord
  /-- The reset input (R260): when it is asserted, "in any state, also while BUSY" (R270), the earliest first. Log 7. -/
  resets : List ResetInput
  /-- The model's own: if at this instant both agents could go, the host goes first (U12). Log 1. -/
  hostFirst : Bool
  /-- The model's own: how many instants have passed; the counter at which free values are drawn. Log 1, log 7. -/
  tick : Nat
deriving DecidableEq, Repr

/-- Why the machine stops. The hardware itself has no exception (R240); these are the cases the spec tells a model to
fault. -/
inductive Fault
  /-- Raised by LDBLK when it reads an MSG byte below MLEN that no WRMSG has written since reset (R264, R252, U3). Safe:
  the hardware would hash what the memory holds. Log 4. -/
  | unwrittenMessageByte
  /-- Raised by LDBLK when it reads PMSG at or above its length P, where PadByte "is not defined" (R105): only in a state
  with BLK >= NB, which is ill-formed (R36) and never reached (R59). Safe. Log 13. -/
  | beyondPaddedMessage
deriving DecidableEq, Repr

/-- What has no meaning. -/
inductive Refusal
  /-- Raised by an arm of `exec` whose instruction has no meaning yet; no arm is one. Safe. -/
  | notModelled (mnemonic : String)
  /-- Raised by the fetch when SEQ holds one of its 205 reserved values (R86 (a), U4): "the step function refuses it".
  Safe. Log 11. -/
  | reservedSeq
  /-- Raised by the fetch when the pending operation has HOP = `0b111` (R86 (b), U5). Safe. Log 11. -/
  | reservedHop
  /-- Raised by the fetch, and by RDH itself, for RDH with HIDX in 4..15 (R86 (b), U5). Safe. Log 11. -/
  | reservedHidx
  /-- Raised by WRMSG and START when `Config.msgBytes` is finite and the address or the length exceeds it (R67, R252, U9).
  Safe. Log 9. -/
  | beyondCapacity
deriving DecidableEq, Repr

/-- What an instruction answers. -/
abbrev Result := Host.Outcome State Fault Refusal

/-- The machine right after reset (R34, R260): SEQ = `0x00`, DONE = 0, BLK = 0, MLEN = 0, every MSG byte unwritten, no
operation pending. H, W and X are unspecified there; DESIGN CHOICE 0, unsafe, log 3. The model's own fields: log 19. -/
def State.reset : State where
  h := #v[0, 0, 0, 0]
  w := #v[0, 0, 0, 0]
  x := #v[0, 0, 0, 0, 0, 0, 0, 0, 0, 0, 0, 0, 0, 0, 0, 0]
  seq := 0x00
  blk := 0
  mlen := 0
  done := false
  msg := []
  hres := none
  port := []
  resets := []
  hostFirst := false
  tick := 0

end Sys2Proof.Machine
end

