-- ==== Sys2Proof/Machine/Rom.lean ====
section
/-! DEFINITION. The constant ROM (R31 of 10_state.md): fixed tables that nothing writes, "the same in every instance and after
every reset" (log 17). -/

namespace Sys2Proof.Machine

open Sys2Proof

/-- `IV[0..3]`, the initial H of every hash (R22). -/
def romIV : Vector Word 4 := #v[0x67452301, 0xEFCDAB89, 0x98BADCFE, 0x10325476]

/-- `K[r]`, the round constants; index 0 is round 1, which adds none, written as 0 (R31, R126). -/
def romK : Vector Word 3 := #v[0x00000000, 0x5A827999, 0x6ED9EBA1]

/-- `S[r]`, the rotate counts of each round, chosen by n mod 4 (R31, R126). -/
def romS : Vector (Vector Nat 4) 3 := #v[#v[3, 7, 11, 19], #v[3, 5, 9, 13], #v[3, 9, 11, 15]]

/-- `KIDX3`, the word-index table of round 3 (R31, R126). -/
def romKidx3 : Vector (Fin 16) 16 := #v[0, 8, 4, 12, 2, 10, 6, 14, 1, 9, 5, 13, 3, 11, 7, 15]

end Sys2Proof.Machine
end

