-- ==== Sys2Proof/Machine/Operands.lean ====
section
/-! DEFINITION. Arithmetic on words (R120 to R125 of 41_compress_common.md), little-endian packing (R9 of 00_scope.md), and the
operands of a step: as one record, and as the formulas of R126 and R127 give them. -/

namespace Sys2Proof.Machine

open Sys2Proof

/-- `add32(a, b) = (a + b) mod 2^32`, the only addition of the hardware; the carry is discarded (R120). -/
def add32 (a b : Word) : Word := a + b

/-- `rotl32(v, c)`, for 1 ≤ c ≤ 31 (R121). Outside that range the spec gives no meaning and no rule applies it (U1): the
formula is used as it stands, and no statement may rest on it. Log 10. -/
def rotl32 (v : Word) (c : Nat) : Word := (v <<< c) ||| (v >>> (32 - c))

/-- `not32(a)`, the complement within 32 bits (R122). -/
def not32 (a : Word) : Word := ~~~a

/-- The mixing function F of round 1: x selects y or z, bit by bit (R123). -/
def mixF (x y z : Word) : Word := (x &&& y) ||| (not32 x &&& z)

/-- The mixing function G of round 2: the majority (R124). -/
def mixG (x y z : Word) : Word := (x &&& y) ||| (x &&& z) ||| (y &&& z)

/-- The mixing function H of round 3: the parity (R125). Not the register file H. -/
def mixH (x y z : Word) : Word := x ^^^ y ^^^ z

/-- `le32(b0, b1, b2, b3)`: b0, at the lowest address, is the least significant byte (R9, R54). -/
def le32 (b0 b1 b2 b3 : Byte) : Word := b3 ++ b2 ++ b1 ++ b0

/-- `byte32(v, j) = (v div 2^(8 j)) mod 256` (R9). -/
def byte32 (v : Word) (j : Nat) : Byte := v.extractLsb' (8 * j) 8

/-- `byte64(v, j) = (v div 2^(8 j)) mod 256`, for a value below 2^64 (R9). -/
def byte64 (v : Nat) (j : Nat) : Byte := BitVec.ofNat 8 (v / 2 ^ (8 * j))

/-- What a step works on: the indices of the destination and of the three mixing inputs in W, the index of the message
word in X, the round constant, the rotate count, and the SEQ it leaves (R128). -/
structure StepOperands where
  dest  : Fin 4
  x     : Fin 4
  y     : Fin 4
  z     : Fin 4
  word  : Fin 16
  rot   : Nat
  const : Word
  next  : BitVec 8
deriving DecidableEq, Repr

/-- The mixing function of round `r` (0 is round 1): F, G, H (R126). -/
def mixOf (r : Fin 3) : Word → Word → Word → Word :=
  match r with
  | 0 => mixF
  | 1 => mixG
  | 2 => mixH

/-- `i = (-n) mod 4`, the destination of step n (R127, D1). -/
def destIndex (n : Fin 16) : Fin 4 := Fin.ofNat 4 (16 - n.val)

/-- `k(r, n)`: n in round 1, (n mod 4)*4 + (n div 4) in round 2, KIDX3[n] in round 3 (R126). -/
def wordIndex (r : Fin 3) (n : Fin 16) : Fin 16 :=
  match r with
  | 0 => n
  | 1 => Fin.ofNat 16 (n.val % 4 * 4 + n.val / 4)
  | 2 => romKidx3[n]

/-- `S[r][n mod 4]` (R126). -/
def rotateCount (r : Fin 3) (n : Fin 16) : Nat := romS[r][n.val % 4]

/-- The SEQ of step (r, n): `0x80 + 16*(r-1) + n` (R82, R128). -/
def seqOfStep (r : Fin 3) (n : Fin 16) : BitVec 8 := BitVec.ofNat 8 (0x80 + 16 * r.val + n.val)

/-- The operands of `STEP(r, n)` as R126, R127 and R128 compute them. -/
def schedule (r : Fin 3) (n : Fin 16) : StepOperands where
  dest  := destIndex n
  x     := destIndex n + 1
  y     := destIndex n + 2
  z     := destIndex n + 3
  word  := wordIndex r n
  rot   := rotateCount r n
  const := romK[r]
  next  := if r = 2 ∧ n = 15 then 0xC0 else seqOfStep r n + 1

/-- The new value of a step's destination (R128): `rotl32(t, c)` with
`t = add32(add32(add32(W[i], f(W[x], W[y], W[z])), X[k]), K)`. All operands are read before the destination is
written. -/
def stepValue (f : Word → Word → Word → Word) (o : StepOperands) (w : Vector Word 4) (x : Vector Word 16) : Word :=
  rotl32 (add32 (add32 (add32 w[o.dest] (f w[o.x] w[o.y] w[o.z])) x[o.word]) o.const) o.rot

/-- The working registers after a step: the destination written, the other three unchanged (R128). -/
def stepWork (f : Word → Word → Word → Word) (o : StepOperands) (w : Vector Word 4) (x : Vector Word 16) :
    Vector Word 4 :=
  w.set o.dest (stepValue f o w x)

/-- The feed-forward: four independent lanes, `H[i] <- add32(H[i], W[i])` (R131). -/
def addLanes (h w : Vector Word 4) : Vector Word 4 := Vector.ofFn fun i => add32 h[i] w[i]

end Sys2Proof.Machine
end

