-- ==== Sys2Proof/Machine/Digest.lean ====
section
/-! DEFINITION. The digest as bytes, as text, and its equality (45_digest_output.md). The CORE delivers words and bytes; the
text and the comparison are the caller's (R211, R214). -/

namespace Sys2Proof.Machine

open Sys2Proof

/-- `DIG[j] = byte32(H[j div 4], j mod 4)`, the byte view of H (R66, R210). -/
def digByte (h : Vector Word 4) (j : Fin 16) : Byte := byte32 h[j.val / 4] (j.val % 4)

/-- `DigestBytes(H)`: sixteen bytes, words in the order H[0], H[1], H[2], H[3], each least significant byte first
(R210). -/
def digestBytes (h : Vector Word 4) : List Byte := (List.finRange 16).map (digByte h)

/-- A hexadecimal digit of `0123456789abcdef` (R211). -/
def hexDigit (n : Nat) : Char := "0123456789abcdef".toList.getD n '0'

/-- Two characters a byte, the high nibble first (R211). -/
def hexByte (b : Byte) : List Char := [hexDigit (b.toNat / 16), hexDigit (b.toNat % 16)]

/-- The characters of `DigestHex(H)`: 32, lowercase, no separators (R211). -/
def digestHexChars (h : Vector Word 4) : List Char := (digestBytes h).flatMap hexByte

/-- `DigestHex(H)` (R211). -/
def digestHex (h : Vector Word 4) : String := String.ofList (digestHexChars h)

/-- Digest equality: "two Digests are equal iff their 4 underlying words are equal" (R214). -/
def digestEq (h h' : Vector Word 4) : Bool := (List.finRange 4).all fun i => decide (h[i] = h'[i])

end Sys2Proof.Machine
end

