-- ==== Sys2Proof/Machine/Flags.lean ====
section
/-! DEFINITION. The status of the CORE and the acceptance table. There are no condition codes (R30 of 10_state.md): DONE is the
only flag, BUSY is derived from SEQ. -/

namespace Sys2Proof.Machine

open Sys2Proof

/-- `BUSY`: "BUSY = 1 exactly when SEQ[7:6] is not 0b00" (R29). -/
def busy (s : State) : Bool := decide (seqPhase s.seq ≠ 0)

/-- What RDSTAT returns: bit 0 BUSY, bit 1 DONE, bits 31:2 zero (R225). -/
def statusWord (s : State) : Word := ((BitVec.ofBool s.done) ++ (BitVec.ofBool (busy s))).zeroExtend 32

/-- The acceptance table (R229): whether the host operation takes effect now; if not it is held. WRLEN, WRMSG and START:
"Accepted: when SEQ = 0x00" (R222 to R224); RDH and RDDIG: "Accepted: when DONE = 1; held otherwise" (R226, R227, log
15); NOP and RDSTAT: always (R221, R225). A micro-operation is never at the host port. -/
def accepted (i : Instr) (s : State) : Bool :=
  match i with
  | .nop | .rdstat => true
  | .wrlen _ | .wrmsg _ _ | .start => decide (s.seq = 0x00)
  | .rdh _ | .rddig _ => s.done
  | .halt | .ldblk | .feed => false
  | .ff0 | .ff1 | .ff2 | .ff3 | .ff4 | .ff5 | .ff6 | .ff7 | .ff8 | .ff9 | .ff10 | .ff11 | .ff12 | .ff13 | .ff14 | .ff15 => false
  | .gg0 | .gg1 | .gg2 | .gg3 | .gg4 | .gg5 | .gg6 | .gg7 | .gg8 | .gg9 | .gg10 | .gg11 | .gg12 | .gg13 | .gg14 | .gg15 => false
  | .hh0 | .hh1 | .hh2 | .hh3 | .hh4 | .hh5 | .hh6 | .hh7 | .hh8 | .hh9 | .hh10 | .hh11 | .hh12 | .hh13 | .hh14 | .hh15 => false

end Sys2Proof.Machine
end

