-- ==== Sys2Proof/Machine/Padding.lean ====
section
/-! DEFINITION. The padding engine (40_padding.md): stateless functions of the message and its length, and the view PMSG through
which LDBLK reads (R52 of 20_memory.md, R105). -/

namespace Sys2Proof.Machine

open Sys2Proof

/-- The value of one MSG byte; none if no WRMSG has written it (R34, R37). -/
def Memory.read (m : Memory) (a : Nat) : Option Byte :=
  match m with
  | [] => none
  | (a', b) :: rest => if a = a' then some b else Memory.read rest a

/-- `z`, the number of zero bytes, in the closed form `(119 - (L mod 64)) mod 64` (R101). -/
def zeroCount (len : Nat) : Nat := (119 - len % 64) % 64

/-- `P = L + 1 + z + 8`, the padded length in bytes (R102). -/
def paddedLength (len : Nat) : Nat := len + 1 + zeroCount len + 8

/-- `NB = ((L + 8) div 64) + 1`, the number of blocks (R102). -/
def numBlocks (len : Nat) : Nat := (len + 8) / 64 + 1

/-- `bitlen = (8 L) mod 2^64`; it wraps silently (R103). -/
def bitLength (len : Nat) : Nat := 8 * len % 2 ^ 64

/-- `Len64(L)`: the length field, least significant byte first (R104). -/
def len64 (len : Nat) : List Byte := (List.range 8).map (byte64 (bitLength len))

/-- `Pad(m) = m ++ [0x80] ++ zeros(z) ++ Len64(L)` (R100). -/
def pad (m : List Byte) : List Byte :=
  m ++ [0x80] ++ List.replicate (zeroCount m.length) 0x00 ++ len64 m.length

/-- `PadByte(a)`, the byte of PMSG at address `a`, read from MSG and MLEN (R105): the message byte below L, where one that
was never written faults (R264); the marker; the zero fill; the length field; not defined at P and above. -/
def pmsgByte (msg : Memory) (len a : Nat) : Except Fault Byte :=
  if a < len then
    match msg.read a with
    | some b => .ok b
    | none => .error .unwrittenMessageByte
  else if a = len then .ok 0x80
  else if a < paddedLength len - 8 then .ok 0x00
  else if a < paddedLength len then .ok (byte64 (bitLength len) (a - (paddedLength len - 8)))
  else .error .beyondPaddedMessage

/-- The reason reading `n` bytes of PMSG from `a` up stops, that of the lowest address; none if every byte can be read. -/
def pmsgFault (msg : Memory) (len a : Nat) : Nat → Option Fault
  | 0 => none
  | n + 1 =>
    match pmsgByte msg len a with
    | .error f => some f
    | .ok _ => pmsgFault msg len (a + 1) n

/-- A byte of PMSG that can be read. -/
def pmsgValue (msg : Memory) (len a : Nat) : Byte :=
  match pmsgByte msg len a with
  | .ok b => b
  | .error _ => 0x00

/-- The word at byte address `a` of PMSG, four bytes in address order (R54). -/
def pmsgWord (msg : Memory) (len a : Nat) : Word :=
  le32 (pmsgValue msg len a) (pmsgValue msg len (a + 1)) (pmsgValue msg len (a + 2)) (pmsgValue msg len (a + 3))

/-- The sixteen words of block `b`: the 64 bytes of PMSG from 64*b, read as one operation (R53, R54, R57); word k starts
at `64*b + 4*k` (R129). No word is formed if one of the bytes cannot be read. -/
def pmsgBlock (msg : Memory) (len b : Nat) : Except Fault (Vector Word 16) :=
  match pmsgFault msg len (64 * b) 64 with
  | some f => .error f
  | none => .ok (Vector.ofFn fun k => pmsgWord msg len (64 * b + 4 * k.val))

end Sys2Proof.Machine
end

