-- ==== Sys2Proof/Machine/Ops.lean ====
section
/-! DEFINITION. The named operations over registers and memory that the meanings are written in. The hardware has no exception,
trap entry or return (R240, R244, R245 of 60_exceptions.md), so there is no operation for taking one; what it has in its
place is the hold (R229 of 46_host_ops.md). -/

namespace Sys2Proof.Machine

open Sys2Proof

/-- `H[0..3] <- v`. -/
def State.setH (s : State) (v : Vector Word 4) : State := { s with h := v }

/-- `W[0..3] <- v`. -/
def State.setW (s : State) (v : Vector Word 4) : State := { s with w := v }

/-- `X[0..15] <- v`. -/
def State.setX (s : State) (v : Vector Word 16) : State := { s with x := v }

/-- `SEQ <- v`, the hardware's form of a jump (R10). -/
def State.setSeq (s : State) (v : BitVec 8) : State := { s with seq := v }

/-- `BLK <- n`. -/
def State.setBlk (s : State) (n : Nat) : State := { s with blk := n }

/-- `MLEN <- n`. -/
def State.setMlen (s : State) (n : Nat) : State := { s with mlen := n }

/-- `DONE <- v`. -/
def State.setDone (s : State) (v : Bool) : State := { s with done := v }

/-- The contents of MSG. -/
def State.setMsg (s : State) (m : Memory) : State := { s with msg := m }

/-- `MSG[a] <- b` keeping the addresses strictly rising (R223: "MSG[a] now counts as written"; "the last write wins"). -/
def Memory.write (m : Memory) (a : Nat) (b : Byte) : Memory :=
  match m with
  | [] => [(a, b)]
  | (a', b') :: rest =>
    if a < a' then (a, b) :: (a', b') :: rest
    else if a = a' then (a, b) :: rest
    else (a', b') :: Memory.write rest a b

/-- Whether the first `n` bytes of MSG lie within a capacity: any number does when it is unbounded (R67). -/
def withinCapacity (cap : Option Nat) (n : Nat) : Bool :=
  match cap with
  | none => true
  | some c => decide (n ≤ c)

/-- A step of a round (R128): one W register and SEQ are written, nothing else. -/
def runStep (f : Word → Word → Word → Word) (o : StepOperands) (s : State) : Result :=
  .next ((s.setW (stepWork f o s.w s.x)).setSeq o.next)

/-- The host operation takes effect (R220): it leaves the port, the one the host issues next is pending, and HRES holds
its result if it has one. -/
def State.accept (s : State) (result : Option Word) : State := { s with port := s.port.tail, hres := result }

/-- The host operation is held: "it has no effect and stays pending until the state accepts it" (R220, R229). -/
def hold (s : State) : Result := .next s

/-- Whether the reset input is asserted at this instant (R260). -/
def State.resetPin (s : State) : Bool :=
  match s.resets with
  | [] => false
  | r :: _ => decide (r.wait = 0)

/-- One instant has passed without a reset: the next one is an instant nearer. -/
def awaitReset : List ResetInput → List ResetInput
  | [] => []
  | r :: rest => { r with wait := r.wait - 1 } :: rest

/-- What the host issues after a reset: "a host operation that was held is no longer pending" (R270), so the pending one is
dropped; those it had not issued yet remain, and those that go with the reset follow them. Log 7. -/
def State.portAfterReset (s : State) : List HostWord := s.port.tail ++ (s.resets.head?.map (·.thenIssue)).getD []

/-- The reset input takes effect (R260, R270), in any state: SEQ, DONE, BLK and MLEN as R34 says, every MSG byte
unwritten, H, W and X unspecified, the pending operation dropped. Log 7. -/
def State.takeReset (s : State) : State :=
  { s with
    h := Vector.ofFn fun i : Fin 4 => Config.unspecified s.tick i.val
    w := Vector.ofFn fun i : Fin 4 => Config.unspecified s.tick (4 + i.val)
    x := Vector.ofFn fun i : Fin 16 => Config.unspecified s.tick (8 + i.val)
    seq := 0x00
    blk := 0
    mlen := 0
    done := false
    msg := []
    hres := none
    port := s.portAfterReset
    resets := s.resets.tail }

/-- Which agent goes first at the next instant is not fixed (R220, R243), so it is drawn anew. Log 1. -/
def State.drawOrder (s : State) : State := { s with hostFirst := Config.hostFirst s.tick, tick := s.tick + 1 }

/-- The instant after an instruction: the order is drawn, and a reset to come is an instant nearer. -/
def State.nextInstant (s : State) : State := { s.drawOrder with resets := awaitReset s.resets }

end Sys2Proof.Machine
end

