-- ==== Sys2Proof/Machine/Control.lean ====
section
/-! DEFINITION. The three micro-operations that are not steps: LDBLK, FEED, HALT (41_compress_common.md, R129 to R131). -/

namespace Sys2Proof.Machine

open Sys2Proof

/-- R130: `HALT`, SEQ = 0x00. "The sequencer does nothing: no state changes." -/
def execHalt (s : State) : Result := .next s

/-- R129: `LDBLK`, SEQ = 0x40. The sixteen words of block BLK into X, H into W. A message byte that was never written
faults here, where it is read (R264). -/
def execLdblk (s : State) : Result :=
  match pmsgBlock s.msg s.mlen s.blk with
  | .error f => .fault f
  | .ok block => .next (((s.setX block).setW s.h).setSeq 0x80)

/-- R131: `FEED`, SEQ = 0xC0. W added onto H, the next block or the end. -/
def execFeed (s : State) : Result :=
  let fed := (s.setH (addLanes s.h s.w)).setBlk (s.blk + 1)
  if s.blk + 1 < numBlocks s.mlen then .next (fed.setSeq 0x40)
  else .next ((fed.setSeq 0x00).setDone true)

end Sys2Proof.Machine
end

