-- ==== Sys2Proof/Machine/HostOps.lean ====
section
/-! DEFINITION. The seven host operations (46_host_ops.md). Each is accepted or held by the one table of R229 (`accepted`); a
held operation changes nothing and stays at the head of the port. -/

namespace Sys2Proof.Machine

open Sys2Proof

/-- R221: `NOP`, always accepted, writes nothing, returns nothing. -/
def execNop (s : State) : Result :=
  if accepted .nop s then .next (s.accept none) else hold s

/-- R222: `WRLEN L`. MLEN only; H and DONE are unchanged. -/
def execWrlen (len : Nat) (s : State) : Result :=
  if accepted (.wrlen len) s then .next ((s.setMlen len).accept none) else hold s

/-- R223 and R67: `WRMSG a, b` for a capacity of MSG. A held operation has no effect, so its address is looked at when it
is accepted. -/
def wrmsgWithin (cap : Option Nat) (addr : Nat) (byte : Byte) (s : State) : Result :=
  if accepted (.wrmsg addr byte) s then
    if withinCapacity cap (addr + 1) then .next ((s.setMsg (s.msg.write addr byte)).accept none)
    else .refused .beyondCapacity
  else hold s

/-- R223: `WRMSG a, b`. MSG[a] only, at any address (R59). -/
def execWrmsg (addr : Nat) (byte : Byte) (s : State) : Result := wrmsgWithin Config.msgBytes addr byte s

/-- R224 and R67: `START` for a capacity of MSG, the length looked at when the operation is accepted. -/
def startWithin (cap : Option Nat) (s : State) : Result :=
  if accepted .start s then
    if withinCapacity cap s.mlen then
      .next (((((s.setH romIV).setBlk 0).setDone false).setSeq 0x40).accept none)
    else .refused .beyondCapacity
  else hold s

/-- R224: `START`. H is loaded from the IV, never continued from an earlier digest (R22, R266). -/
def execStart (s : State) : Result := startWithin Config.msgBytes s

/-- R225: `RDSTAT`, always accepted; the only operation whose result depends on how far the sequencer has run. -/
def execRdstat (s : State) : Result :=
  if accepted .rdstat s then .next (s.accept (some (statusWord s))) else hold s

/-- R226: `RDH i`. HRES <- H[i] for i in 0..3; 4..15 is a reserved encoding, refused in any state (R86). -/
def execRdh (idx : BitVec 4) (s : State) : Result :=
  if inRange : idx.toNat < 4 then
    if accepted (.rdh idx) s then .next (s.accept (some s.h[idx.toNat])) else hold s
  else .refused .reservedHidx

/-- R227: `RDDIG j`. HRES[7:0] <- DIG[j], HRES[31:8] <- 0. -/
def execRddig (idx : BitVec 4) (s : State) : Result :=
  if accepted (.rddig idx) s then .next (s.accept (some ((digByte s.h idx.toFin).zeroExtend 32))) else hold s

end Sys2Proof.Machine
end

