-- ==== Sys2Proof/Machine/Round1.lean ====
section
/-! DEFINITION. The sixteen steps of round 1, `FF.0` to `FF.15`: one meaning a rule, its operands transcribed from
the rule's own operand list (rules R150 to R165 of 42_round1.md). The formulas of rules R126 and R127 are NOT
used here: they stand in Machine/Operands.lean (`schedule`), so that the two can be held against each other. -/

namespace Sys2Proof.Machine

/-- R150: `FF.0`, SEQ = 0x80. -/
def execFf0 (s : State) : Result :=
  runStep mixF { dest := 0, x := 1, y := 2, z := 3, word := 0, rot := 3, const := 0x00000000, next := 0x81 } s

/-- R151: `FF.1`, SEQ = 0x81. -/
def execFf1 (s : State) : Result :=
  runStep mixF { dest := 3, x := 0, y := 1, z := 2, word := 1, rot := 7, const := 0x00000000, next := 0x82 } s

/-- R152: `FF.2`, SEQ = 0x82. -/
def execFf2 (s : State) : Result :=
  runStep mixF { dest := 2, x := 3, y := 0, z := 1, word := 2, rot := 11, const := 0x00000000, next := 0x83 } s

/-- R153: `FF.3`, SEQ = 0x83. -/
def execFf3 (s : State) : Result :=
  runStep mixF { dest := 1, x := 2, y := 3, z := 0, word := 3, rot := 19, const := 0x00000000, next := 0x84 } s

/-- R154: `FF.4`, SEQ = 0x84. -/
def execFf4 (s : State) : Result :=
  runStep mixF { dest := 0, x := 1, y := 2, z := 3, word := 4, rot := 3, const := 0x00000000, next := 0x85 } s

/-- R155: `FF.5`, SEQ = 0x85. -/
def execFf5 (s : State) : Result :=
  runStep mixF { dest := 3, x := 0, y := 1, z := 2, word := 5, rot := 7, const := 0x00000000, next := 0x86 } s

/-- R156: `FF.6`, SEQ = 0x86. -/
def execFf6 (s : State) : Result :=
  runStep mixF { dest := 2, x := 3, y := 0, z := 1, word := 6, rot := 11, const := 0x00000000, next := 0x87 } s

/-- R157: `FF.7`, SEQ = 0x87. -/
def execFf7 (s : State) : Result :=
  runStep mixF { dest := 1, x := 2, y := 3, z := 0, word := 7, rot := 19, const := 0x00000000, next := 0x88 } s

/-- R158: `FF.8`, SEQ = 0x88. -/
def execFf8 (s : State) : Result :=
  runStep mixF { dest := 0, x := 1, y := 2, z := 3, word := 8, rot := 3, const := 0x00000000, next := 0x89 } s

/-- R159: `FF.9`, SEQ = 0x89. -/
def execFf9 (s : State) : Result :=
  runStep mixF { dest := 3, x := 0, y := 1, z := 2, word := 9, rot := 7, const := 0x00000000, next := 0x8A } s

/-- R160: `FF.10`, SEQ = 0x8A. -/
def execFf10 (s : State) : Result :=
  runStep mixF { dest := 2, x := 3, y := 0, z := 1, word := 10, rot := 11, const := 0x00000000, next := 0x8B } s

/-- R161: `FF.11`, SEQ = 0x8B. -/
def execFf11 (s : State) : Result :=
  runStep mixF { dest := 1, x := 2, y := 3, z := 0, word := 11, rot := 19, const := 0x00000000, next := 0x8C } s

/-- R162: `FF.12`, SEQ = 0x8C. -/
def execFf12 (s : State) : Result :=
  runStep mixF { dest := 0, x := 1, y := 2, z := 3, word := 12, rot := 3, const := 0x00000000, next := 0x8D } s

/-- R163: `FF.13`, SEQ = 0x8D. -/
def execFf13 (s : State) : Result :=
  runStep mixF { dest := 3, x := 0, y := 1, z := 2, word := 13, rot := 7, const := 0x00000000, next := 0x8E } s

/-- R164: `FF.14`, SEQ = 0x8E. -/
def execFf14 (s : State) : Result :=
  runStep mixF { dest := 2, x := 3, y := 0, z := 1, word := 14, rot := 11, const := 0x00000000, next := 0x8F } s

/-- R165: `FF.15`, SEQ = 0x8F. -/
def execFf15 (s : State) : Result :=
  runStep mixF { dest := 1, x := 2, y := 3, z := 0, word := 15, rot := 19, const := 0x00000000, next := 0x90 } s

end Sys2Proof.Machine
end

