-- ==== Sys2Proof/Machine/Round2.lean ====
section
/-! DEFINITION. The sixteen steps of round 2, `GG.0` to `GG.15`: one meaning a rule, its operands transcribed from
the rule's own operand list (rules R170 to R185 of 43_round2.md). The formulas of rules R126 and R127 are NOT
used here: they stand in Machine/Operands.lean (`schedule`), so that the two can be held against each other. -/

namespace Sys2Proof.Machine

/-- R170: `GG.0`, SEQ = 0x90. -/
def execGg0 (s : State) : Result :=
  runStep mixG { dest := 0, x := 1, y := 2, z := 3, word := 0, rot := 3, const := 0x5A827999, next := 0x91 } s

/-- R171: `GG.1`, SEQ = 0x91. -/
def execGg1 (s : State) : Result :=
  runStep mixG { dest := 3, x := 0, y := 1, z := 2, word := 4, rot := 5, const := 0x5A827999, next := 0x92 } s

/-- R172: `GG.2`, SEQ = 0x92. -/
def execGg2 (s : State) : Result :=
  runStep mixG { dest := 2, x := 3, y := 0, z := 1, word := 8, rot := 9, const := 0x5A827999, next := 0x93 } s

/-- R173: `GG.3`, SEQ = 0x93. -/
def execGg3 (s : State) : Result :=
  runStep mixG { dest := 1, x := 2, y := 3, z := 0, word := 12, rot := 13, const := 0x5A827999, next := 0x94 } s

/-- R174: `GG.4`, SEQ = 0x94. -/
def execGg4 (s : State) : Result :=
  runStep mixG { dest := 0, x := 1, y := 2, z := 3, word := 1, rot := 3, const := 0x5A827999, next := 0x95 } s

/-- R175: `GG.5`, SEQ = 0x95. -/
def execGg5 (s : State) : Result :=
  runStep mixG { dest := 3, x := 0, y := 1, z := 2, word := 5, rot := 5, const := 0x5A827999, next := 0x96 } s

/-- R176: `GG.6`, SEQ = 0x96. -/
def execGg6 (s : State) : Result :=
  runStep mixG { dest := 2, x := 3, y := 0, z := 1, word := 9, rot := 9, const := 0x5A827999, next := 0x97 } s

/-- R177: `GG.7`, SEQ = 0x97. -/
def execGg7 (s : State) : Result :=
  runStep mixG { dest := 1, x := 2, y := 3, z := 0, word := 13, rot := 13, const := 0x5A827999, next := 0x98 } s

/-- R178: `GG.8`, SEQ = 0x98. -/
def execGg8 (s : State) : Result :=
  runStep mixG { dest := 0, x := 1, y := 2, z := 3, word := 2, rot := 3, const := 0x5A827999, next := 0x99 } s

/-- R179: `GG.9`, SEQ = 0x99. -/
def execGg9 (s : State) : Result :=
  runStep mixG { dest := 3, x := 0, y := 1, z := 2, word := 6, rot := 5, const := 0x5A827999, next := 0x9A } s

/-- R180: `GG.10`, SEQ = 0x9A. -/
def execGg10 (s : State) : Result :=
  runStep mixG { dest := 2, x := 3, y := 0, z := 1, word := 10, rot := 9, const := 0x5A827999, next := 0x9B } s

/-- R181: `GG.11`, SEQ = 0x9B. -/
def execGg11 (s : State) : Result :=
  runStep mixG { dest := 1, x := 2, y := 3, z := 0, word := 14, rot := 13, const := 0x5A827999, next := 0x9C } s

/-- R182: `GG.12`, SEQ = 0x9C. -/
def execGg12 (s : State) : Result :=
  runStep mixG { dest := 0, x := 1, y := 2, z := 3, word := 3, rot := 3, const := 0x5A827999, next := 0x9D } s

/-- R183: `GG.13`, SEQ = 0x9D. -/
def execGg13 (s : State) : Result :=
  runStep mixG { dest := 3, x := 0, y := 1, z := 2, word := 7, rot := 5, const := 0x5A827999, next := 0x9E } s

/-- R184: `GG.14`, SEQ = 0x9E. -/
def execGg14 (s : State) : Result :=
  runStep mixG { dest := 2, x := 3, y := 0, z := 1, word := 11, rot := 9, const := 0x5A827999, next := 0x9F } s

/-- R185: `GG.15`, SEQ = 0x9F. -/
def execGg15 (s : State) : Result :=
  runStep mixG { dest := 1, x := 2, y := 3, z := 0, word := 15, rot := 13, const := 0x5A827999, next := 0xA0 } s

end Sys2Proof.Machine
end

