-- ==== Sys2Proof/Machine/Round3.lean ====
section
/-! DEFINITION. The sixteen steps of round 3, `HH.0` to `HH.15`: one meaning a rule, its operands transcribed from
the rule's own operand list (rules R190 to R205 of 44_round3.md). The formulas of rules R126 and R127 are NOT
used here: they stand in Machine/Operands.lean (`schedule`), so that the two can be held against each other. -/

namespace Sys2Proof.Machine

/-- R190: `HH.0`, SEQ = 0xA0. -/
def execHh0 (s : State) : Result :=
  runStep mixH { dest := 0, x := 1, y := 2, z := 3, word := 0, rot := 3, const := 0x6ED9EBA1, next := 0xA1 } s

/-- R191: `HH.1`, SEQ = 0xA1. -/
def execHh1 (s : State) : Result :=
  runStep mixH { dest := 3, x := 0, y := 1, z := 2, word := 8, rot := 9, const := 0x6ED9EBA1, next := 0xA2 } s

/-- R192: `HH.2`, SEQ = 0xA2. -/
def execHh2 (s : State) : Result :=
  runStep mixH { dest := 2, x := 3, y := 0, z := 1, word := 4, rot := 11, const := 0x6ED9EBA1, next := 0xA3 } s

/-- R193: `HH.3`, SEQ = 0xA3. -/
def execHh3 (s : State) : Result :=
  runStep mixH { dest := 1, x := 2, y := 3, z := 0, word := 12, rot := 15, const := 0x6ED9EBA1, next := 0xA4 } s

/-- R194: `HH.4`, SEQ = 0xA4. -/
def execHh4 (s : State) : Result :=
  runStep mixH { dest := 0, x := 1, y := 2, z := 3, word := 2, rot := 3, const := 0x6ED9EBA1, next := 0xA5 } s

/-- R195: `HH.5`, SEQ = 0xA5. -/
def execHh5 (s : State) : Result :=
  runStep mixH { dest := 3, x := 0, y := 1, z := 2, word := 10, rot := 9, const := 0x6ED9EBA1, next := 0xA6 } s

/-- R196: `HH.6`, SEQ = 0xA6. -/
def execHh6 (s : State) : Result :=
  runStep mixH { dest := 2, x := 3, y := 0, z := 1, word := 6, rot := 11, const := 0x6ED9EBA1, next := 0xA7 } s

/-- R197: `HH.7`, SEQ = 0xA7. -/
def execHh7 (s : State) : Result :=
  runStep mixH { dest := 1, x := 2, y := 3, z := 0, word := 14, rot := 15, const := 0x6ED9EBA1, next := 0xA8 } s

/-- R198: `HH.8`, SEQ = 0xA8. -/
def execHh8 (s : State) : Result :=
  runStep mixH { dest := 0, x := 1, y := 2, z := 3, word := 1, rot := 3, const := 0x6ED9EBA1, next := 0xA9 } s

/-- R199: `HH.9`, SEQ = 0xA9. -/
def execHh9 (s : State) : Result :=
  runStep mixH { dest := 3, x := 0, y := 1, z := 2, word := 9, rot := 9, const := 0x6ED9EBA1, next := 0xAA } s

/-- R200: `HH.10`, SEQ = 0xAA. -/
def execHh10 (s : State) : Result :=
  runStep mixH { dest := 2, x := 3, y := 0, z := 1, word := 5, rot := 11, const := 0x6ED9EBA1, next := 0xAB } s

/-- R201: `HH.11`, SEQ = 0xAB. -/
def execHh11 (s : State) : Result :=
  runStep mixH { dest := 1, x := 2, y := 3, z := 0, word := 13, rot := 15, const := 0x6ED9EBA1, next := 0xAC } s

/-- R202: `HH.12`, SEQ = 0xAC. -/
def execHh12 (s : State) : Result :=
  runStep mixH { dest := 0, x := 1, y := 2, z := 3, word := 3, rot := 3, const := 0x6ED9EBA1, next := 0xAD } s

/-- R203: `HH.13`, SEQ = 0xAD. -/
def execHh13 (s : State) : Result :=
  runStep mixH { dest := 3, x := 0, y := 1, z := 2, word := 11, rot := 9, const := 0x6ED9EBA1, next := 0xAE } s

/-- R204: `HH.14`, SEQ = 0xAE. -/
def execHh14 (s : State) : Result :=
  runStep mixH { dest := 2, x := 3, y := 0, z := 1, word := 7, rot := 11, const := 0x6ED9EBA1, next := 0xAF } s

/-- R205: `HH.15`, SEQ = 0xAF. -/
def execHh15 (s : State) : Result :=
  runStep mixH { dest := 1, x := 2, y := 3, z := 0, word := 15, rot := 15, const := 0x6ED9EBA1, next := 0xC0 } s

end Sys2Proof.Machine
end

