-- ==== Sys2Proof/Machine/Dispatch.lean ====
section
/-! DEFINITION. The meaning of every instruction, one arm a constructor. `exec i s` is the effect of `i` in `s` whether or not
`s` is about to perform it: which instruction a step performs is Machine/Fetch.lean's (log 12). -/

namespace Sys2Proof.Machine

open Sys2Proof

def exec (i : Instr) (s : State) : Host.Outcome State Fault Refusal :=
  match i with
  | .halt => Sys2Proof.Machine.execHalt s
  | .ldblk => Sys2Proof.Machine.execLdblk s
  | .ff0 => Sys2Proof.Machine.execFf0 s
  | .ff1 => Sys2Proof.Machine.execFf1 s
  | .ff2 => Sys2Proof.Machine.execFf2 s
  | .ff3 => Sys2Proof.Machine.execFf3 s
  | .ff4 => Sys2Proof.Machine.execFf4 s
  | .ff5 => Sys2Proof.Machine.execFf5 s
  | .ff6 => Sys2Proof.Machine.execFf6 s
  | .ff7 => Sys2Proof.Machine.execFf7 s
  | .ff8 => Sys2Proof.Machine.execFf8 s
  | .ff9 => Sys2Proof.Machine.execFf9 s
  | .ff10 => Sys2Proof.Machine.execFf10 s
  | .ff11 => Sys2Proof.Machine.execFf11 s
  | .ff12 => Sys2Proof.Machine.execFf12 s
  | .ff13 => Sys2Proof.Machine.execFf13 s
  | .ff14 => Sys2Proof.Machine.execFf14 s
  | .ff15 => Sys2Proof.Machine.execFf15 s
  | .gg0 => Sys2Proof.Machine.execGg0 s
  | .gg1 => Sys2Proof.Machine.execGg1 s
  | .gg2 => Sys2Proof.Machine.execGg2 s
  | .gg3 => Sys2Proof.Machine.execGg3 s
  | .gg4 => Sys2Proof.Machine.execGg4 s
  | .gg5 => Sys2Proof.Machine.execGg5 s
  | .gg6 => Sys2Proof.Machine.execGg6 s
  | .gg7 => Sys2Proof.Machine.execGg7 s
  | .gg8 => Sys2Proof.Machine.execGg8 s
  | .gg9 => Sys2Proof.Machine.execGg9 s
  | .gg10 => Sys2Proof.Machine.execGg10 s
  | .gg11 => Sys2Proof.Machine.execGg11 s
  | .gg12 => Sys2Proof.Machine.execGg12 s
  | .gg13 => Sys2Proof.Machine.execGg13 s
  | .gg14 => Sys2Proof.Machine.execGg14 s
  | .gg15 => Sys2Proof.Machine.execGg15 s
  | .hh0 => Sys2Proof.Machine.execHh0 s
  | .hh1 => Sys2Proof.Machine.execHh1 s
  | .hh2 => Sys2Proof.Machine.execHh2 s
  | .hh3 => Sys2Proof.Machine.execHh3 s
  | .hh4 => Sys2Proof.Machine.execHh4 s
  | .hh5 => Sys2Proof.Machine.execHh5 s
  | .hh6 => Sys2Proof.Machine.execHh6 s
  | .hh7 => Sys2Proof.Machine.execHh7 s
  | .hh8 => Sys2Proof.Machine.execHh8 s
  | .hh9 => Sys2Proof.Machine.execHh9 s
  | .hh10 => Sys2Proof.Machine.execHh10 s
  | .hh11 => Sys2Proof.Machine.execHh11 s
  | .hh12 => Sys2Proof.Machine.execHh12 s
  | .hh13 => Sys2Proof.Machine.execHh13 s
  | .hh14 => Sys2Proof.Machine.execHh14 s
  | .hh15 => Sys2Proof.Machine.execHh15 s
  | .feed => Sys2Proof.Machine.execFeed s
  | .nop => Sys2Proof.Machine.execNop s
  | .wrlen len => Sys2Proof.Machine.execWrlen len s
  | .wrmsg addr byte => Sys2Proof.Machine.execWrmsg addr byte s
  | .start => Sys2Proof.Machine.execStart s
  | .rdstat => Sys2Proof.Machine.execRdstat s
  | .rdh idx => Sys2Proof.Machine.execRdh idx s
  | .rddig idx => Sys2Proof.Machine.execRddig idx s

end Sys2Proof.Machine
end

