-- ==== Sys2Proof/Machine/Fetch.lean ====
section
/-! DEFINITION. Which operation the machine performs at an instant (R220 of 46_host_ops.md), and how one is placed so that it is
the next. -/

namespace Sys2Proof.Machine

open Sys2Proof

/-- What happens at an instant. -/
inductive Fetched
  /-- the reset input is asserted (R260) -/
  | reset
  /-- one of the agents performs this instruction -/
  | run (i : Instr)
  /-- what stands in SEQ or at the port has no meaning (R86) -/
  | refuse (r : Refusal)
deriving DecidableEq, Repr

/-- The refusal of a reserved code (R86). -/
def refusalOf : Reserved → Refusal
  | .seq => .reservedSeq
  | .hop => .reservedHop
  | .hidx => .reservedHidx

/-- Whether the host's operation is performed at this instant: the state accepts it, and the sequencer has no
micro-operation to perform (SEQ = `0x00`) or the host goes first (R220, U12). -/
def hostMoves (i : Instr) (s : State) : Bool := accepted i s && (decide (s.seq = 0x00) || s.hostFirst)

/-- "At any instant either the sequencer performs its micro-operation (if SEQ is not 0x00) or the host's pending operation
is accepted (if the state accepts it)" (R220); in phase HALT with nothing to accept the sequencer performs HALT, which
changes nothing (R130, log 8). Reset is allowed in any state (R270). A reserved SEQ and a reserved operation at the port
are refused (R86). -/
def fetch (s : State) : Fetched :=
  if s.resetPin then .reset
  else
    match decodeSeq s.seq with
    | .reserved why => .refuse (refusalOf why)
    | .instr u =>
      match s.port with
      | [] => .run u
      | pending :: _ =>
        match decodeHost pending with
        | .reserved why => .refuse (refusalOf why)
        | .instr i => if hostMoves i s then .run i else .run u

/-- The result of an instruction, at the next instant. -/
def atNextInstant : Result → Result
  | .next s => .next s.nextInstant
  | .fault f => .fault f
  | .refused r => .refused r

/-- The code placed where it is performed next: a SEQ value in SEQ with nothing pending at the port; a host operation at
the head of the port in phase HALT, where only the host moves, and for a read of the digest with DONE set, without which
it is held and not performed (R226, R227). Log 14. -/
def placeCode (s : State) : Code → State
  | .seq b => { s with seq := b, port := [], resets := [] }
  | .host w =>
    { s with seq := 0x00, done := s.done || w.hop == 0b101 || w.hop == 0b110, port := w :: s.port, resets := [] }

end Sys2Proof.Machine
end

