-- ==== Sys2Proof/Machine/Step.lean ====
section
/-! DEFINITION. One step of the machine: one micro-operation of the sequencer, one accepted host operation, or the reset input
(R220 of 46_host_ops.md, R260 of 70_reset_and_hazards.md). -/

namespace Sys2Proof.Machine

open Sys2Proof

/-- One step. -/
def step (s : State) : Host.Outcome State Fault Refusal :=
  match fetch s with
  | .reset => .next s.takeReset.drawOrder
  | .run i => atNextInstant (exec i s)
  | .refuse r => .refused r

/-- `s` with the instruction of the table whose bits are `w` placed so that the very next step runs it (log 14). -/
def State.withFetchWord (s : State) (nbits w : Nat) : State :=
  match tableCode nbits w with
  | some c => placeCode s c
  | none => s

end Sys2Proof.Machine
end

