-- ==== Sys2Proof/Machine/Hash.lean ====
section
/-! DEFINITION. The functions the machine is to compute, on plain data: `Compress` (R132 of 41_compress_common.md), the chain
over the blocks (R134) and `Hash` (R228 of 46_host_ops.md). They are written from the formulas of R126 and R127; the
meanings of the 48 steps are written from their own rules, so the two are independent readings of the spec. -/

namespace Sys2Proof.Machine

open Sys2Proof

/-- The round, 0..2, of step number s = 16*(r-1) + n (R12). -/
def roundOf (s : Nat) : Fin 3 := Fin.ofNat 3 (s / 16)

/-- The step index n, 0..15, of step number s (R12). -/
def indexOf (s : Nat) : Fin 16 := Fin.ofNat 16 s

/-- The working registers after the first `s` of the 48 steps, from `w` (R132, R133). -/
def workAfter (w : Vector Word 4) (x : Vector Word 16) : Nat → Vector Word 4
  | 0 => w
  | s + 1 => stepWork (mixOf (roundOf s)) (schedule (roundOf s) (indexOf s)) (workAfter w x s) x

/-- `Compress(state, block)`: the 48 steps on a copy of the state, then added onto it lane by lane (R132). -/
def compress (h : Vector Word 4) (x : Vector Word 16) : Vector Word 4 := addLanes h (workAfter h x 48)

/-- Word k of block b of a padded message held as a byte sequence (R228). -/
def wordOfBytes (p : List Byte) (b : Nat) (k : Fin 16) : Word :=
  le32 (p.getD (64 * b + 4 * k.val) 0) (p.getD (64 * b + 4 * k.val + 1) 0)
    (p.getD (64 * b + 4 * k.val + 2) 0) (p.getD (64 * b + 4 * k.val + 3) 0)

/-- `B_b`, the sixteen words of block b of Pad(m) (R228). -/
def blockOf (m : List Byte) (b : Nat) : Vector Word 16 := Vector.ofFn (wordOfBytes (pad m) b)

/-- `S_b`: `S_0 = IV`, `S_(b+1) = Compress(S_b, B_b)` (R134, R228). -/
def chain (m : List Byte) : Nat → Vector Word 4
  | 0 => romIV
  | b + 1 => compress (chain m b) (blockOf m b)

/-- `Hash(m) = S_NB` (R228); defined for every byte sequence. -/
def hash (m : List Byte) : Vector Word 4 := chain m (numBlocks m.length)

end Sys2Proof.Machine
end

