-- ==== Sys2Proof/Machine/Pseudo.lean ====
section
/-! DEFINITION. The pseudo-operations (R89 of 30_encoding.md), "each an abbreviation and nothing more": lists of instructions,
and a program as what the host drives onto its port. `RESET` is the reset input (`State.resets`). -/

namespace Sys2Proof.Machine

open Sys2Proof

/-- `LOADMSG m`: `WRLEN len(m)`, then `WRMSG a, m[a]` in increasing a. -/
def loadMsg (m : List Byte) : List Instr := .wrlen m.length :: m.zipIdx.map fun p => .wrmsg p.2 p.1

/-- `WAIT`, as far as a list can say it: `n` polls with `RDSTAT`. The host repeats them until HRES[1] = 1; a read of the
digest that is held until DONE does the same (R232). -/
def waitPolls (n : Nat) : List Instr := List.replicate n .rdstat

/-- `RDALL`: `RDDIG 0`, ..., `RDDIG 15`. -/
def rdAll : List Instr := (List.range 16).map fun j => .rddig (BitVec.ofNat 4 j)

/-- `HASH m` in the form of R232 that lets the first `RDDIG` be held until DONE. -/
def hashProgram (m : List Byte) : List Instr := loadMsg m ++ [.start] ++ rdAll

/-- `ROUND1`, `ROUND2`, `ROUND3`: the sixteen steps of a round in order. -/
def roundOps (r : Fin 3) : List Instr := (List.finRange 16).map (stepInstr r)

/-- `COMPRESS`: `LDBLK`, `ROUND1`, `ROUND2`, `ROUND3`, `FEED`. -/
def compressOps : List Instr := .ldblk :: (roundOps 0 ++ roundOps 1 ++ roundOps 2) ++ [.feed]

/-- A program as the words the host drives onto its port, one operation after the other (R80, R220). -/
def programWords (p : List Instr) : List HostWord := p.map hostWordOf

end Sys2Proof.Machine
end

