-- ==== Sys2Proof/Safety.lean ====
section
/-! DEFINITION. What claims are stated in: the well-formed states (R36 of 10_state.md), the message a state holds, a hash in
progress, the final states and the stuck ones (R231 of 46_host_ops.md, R252 of 60_exceptions.md). -/

namespace Sys2Proof.Machine

open Sys2Proof

/-- SEQ is one of its 51 values (R25, R82). -/
def legalSeq (b : BitVec 8) : Bool := (decodeSeq b).toOption.isSome

/-- The well-formed states (R36): "SEQ is one of the 51 values of rule R25; DONE = 1 only if SEQ = 0x00; and, when
SEQ[7:6] is not 0b00, BLK < NB(MLEN)"; and MSG in its canonical form. -/
abbrev State.WellFormed (s : State) : Prop :=
  legalSeq s.seq = true ∧ (s.done = true → s.seq = 0x00) ∧ (busy s = true → s.blk < numBlocks s.mlen) ∧
    s.msg.wf = true

/-- Every message byte has been written (R261). -/
abbrev State.MessageWritten (s : State) : Prop := ∀ a, a < s.mlen → (s.msg.read a).isSome = true

/-- MSG and MLEN hold the message `m` (R51: "the byte sequence MSG[0], MSG[1], ..., MSG[MLEN-1]"). -/
abbrev State.Holds (s : State) (m : List Byte) : Prop :=
  s.mlen = m.length ∧ ∀ a, a < m.length → s.msg.read a = m[a]?

/-- What the host has still to issue: what stands at the port, and what follows each reset. -/
def State.issues (s : State) : List HostWord := s.port ++ s.resets.flatMap (·.thenIssue)

/-- The host issues nothing reserved (R86: "the host is assumed never to issue them"). -/
abbrev State.PortLegal (s : State) : Prop := ∀ w ∈ s.issues, (decodeHost w).toOption.isSome = true

/-- No reset is asserted at the next `k` instants. -/
abbrev State.NoResetFor (k : Nat) (s : State) : Prop := ∀ r ∈ s.resets.head?, k ≤ r.wait

/-- A hash of `m` is in progress (R134): H holds the chaining value S_b of the block in progress, b < NB, and W and X are
where SEQ says. -/
def State.Hashing (m : List Byte) (s : State) : Prop :=
  s.Holds m ∧ s.done = false ∧ s.blk < numBlocks m.length ∧ s.h = chain m s.blk ∧
    (s.seq = 0x40 ∨
      ∃ n, n ≤ 48 ∧ s.x = blockOf m s.blk ∧ s.w = workAfter s.h s.x n ∧
        s.seq = if n = 48 then 0xC0 else BitVec.ofNat 8 (0x80 + n))

/-- How many micro-operations a hash of NB = `nb` blocks has still to perform (R135). -/
def State.remaining (nb : Nat) (s : State) : Nat :=
  50 * (nb - s.blk) - (if s.seq = 0x40 then 0 else if s.seq = 0xC0 then 49 else s.seq.toNat - 0x80 + 1)

/-- The digest of `m` is ready (R29, R33). -/
def State.HasDigest (m : List Byte) (s : State) : Prop := s.done = true ∧ s.seq = 0x00 ∧ s.h = hash m

/-- A final state. DESIGN CHOICE (log 21): the spec says which states are never final (R231, R252, R264, R268) and defines
no final state; here it is one in which the host has issued everything, no reset is to come and the sequencer is in phase
HALT. DONE is not asked, so the idle state after reset is final too. -/
def State.Final (s : State) : Prop := s.resets = [] ∧ s.port = [] ∧ s.seq = 0x00

/-- A stuck state (R231, R252, U6): a read of the digest is pending, there is none, no hash is running, and no reset is to
come. It is not final. Log 8. -/
def State.Stuck (s : State) : Prop :=
  s.resets = [] ∧ s.seq = 0x00 ∧ s.done = false ∧
    ∃ w rest, s.port = w :: rest ∧
      ((∃ i, decodeHost w = .instr (.rdh i)) ∨ ∃ j, decodeHost w = .instr (.rddig j))

end Sys2Proof.Machine
end

