-- ==== Sys2Proof/Certificates/Slice0/Obligations.lean ====
section
/-! DEFINITION. The statements for the provers. `Sys2Proof.Spec` holds the words they are stated in: the rules' own arithmetic,
on natural numbers, written again here and not taken from the model. -/

namespace Sys2Proof.Spec

open Sys2Proof Sys2Proof.Machine

/-- `((value << n) | (value >> (32 - n))) mod 2^32` (R121). -/
def rotl (v c : Nat) : Nat := ((v <<< c) ||| (v >>> (32 - c))) % 2 ^ 32

/-- `add32(add32(add32(w, f), x), K)` (R120, R128). -/
def sum4 (w f x k : Nat) : Nat := (((w + f) % 2 ^ 32 + x) % 2 ^ 32 + k) % 2 ^ 32

/-- `F(x,y,z) = (x AND y) OR ((NOT x) AND z)` (R123). -/
def fF (x y z : Word) : Word := (x &&& y) ||| (~~~x &&& z)

/-- `G(x,y,z) = (x AND y) OR (x AND z) OR (y AND z)` (R124). -/
def fG (x y z : Word) : Word := (x &&& y) ||| (x &&& z) ||| (y &&& z)

/-- `H(x,y,z) = x XOR y XOR z` (R125). -/
def fH (x y z : Word) : Word := x ^^^ y ^^^ z

/-- The host port, HRES, the resets to come and the model's own fields are as before. -/
def HostSideSame (s t : State) : Prop :=
  t.port = s.port ∧ t.hres = s.hres ∧ t.resets = s.resets ∧ t.hostFirst = s.hostFirst ∧ t.tick = s.tick

/-- Every byte of MSG reads as before. -/
def MsgSame (s t : State) : Prop := ∀ a, t.msg.read a = s.msg.read a

/-- The rule of one step, R150 to R205: its code, what it computes and writes, what it leaves, and what follows. -/
def StepRule (i : Instr) (code : BitVec 8) (f : Word → Word → Word → Word) (d x y z : Fin 4) (k : Fin 16) (c K : Nat)
    (next : BitVec 8) (nextInstr : Instr) : Prop :=
  decode (.seq code) = .instr i ∧ encode i = .seq code ∧ decode (.seq next) = .instr nextInstr ∧
  ∀ s : State, ∃ t, exec i s = .next t ∧
    t.w[d].toNat = rotl (sum4 s.w[d].toNat (f s.w[x] s.w[y] s.w[z]).toNat s.x[k].toNat K) c ∧
    (∀ j : Fin 4, j ≠ d → t.w[j] = s.w[j]) ∧ t.seq = next ∧
    t.x = s.x ∧ t.h = s.h ∧ t.blk = s.blk ∧ t.mlen = s.mlen ∧ t.done = s.done ∧ MsgSame s t ∧ HostSideSame s t

/-- `NB = ((L + 8) div 64) + 1` (R102). -/
def nb (len : Nat) : Nat := (len + 8) / 64 + 1

/-- `PadByte(a)` as a number (R105), an unwritten message byte counted as 0. -/
def padByte (s : State) (a : Nat) : Nat :=
  if a < s.mlen then ((s.msg.read a).getD 0).toNat
  else if a = s.mlen then 0x80
  else if a < 64 * nb s.mlen - 8 then 0
  else 8 * s.mlen % 2 ^ 64 / 2 ^ (8 * (a - (64 * nb s.mlen - 8))) % 256

/-- A value below 2^32 from its four bytes, the first the least significant (R9, R54). -/
def le (b : Nat → Nat) (a : Nat) : Nat := b a + 2 ^ 8 * b (a + 1) + 2 ^ 16 * b (a + 2) + 2 ^ 24 * b (a + 3)

/-- The "accept" entries of the table of R229. -/
def AcceptEntry (i : Instr) (s : State) : Prop :=
  match i with
  | .nop | .rdstat => True
  | .wrlen _ | .wrmsg _ _ | .start => s.seq = 0x00
  | .rdh _ | .rddig _ => s.seq = 0x00 ∧ s.done = true
  | _ => False

/-- `k` steps of the machine. -/
def run (k : Nat) (s : State) : Result := Host.Core.run Sys2Proof.core k s

end Sys2Proof.Spec

open Sys2Proof Sys2Proof.Machine Sys2Proof.Spec

/-! ## Arithmetic -/

/-- R120: addition modulo 2^32, commutative and associative. -/
def Obligations.AdditionWraps : Prop :=
  ∀ a b c : Word, (add32 a b).toNat = (a.toNat + b.toNat) % 2 ^ 32 ∧ add32 a b = add32 b a ∧
    add32 (add32 a b) c = add32 a (add32 b c)

/-- R121, for the counts it is defined on: the formula, and "bit j of v becomes bit (j + c) mod 32 of the result". -/
def Obligations.RotationMovesEachBit : Prop :=
  ∀ (v : Word) (c : Nat), 1 ≤ c → c ≤ 31 →
    (rotl32 v c).toNat = rotl v.toNat c ∧
    ∀ j, j < 32 → (rotl32 v c).getLsbD ((j + c) % 32) = v.getLsbD j

/-- R122 to R125, bit by bit: the complement, selection, majority, parity. -/
def Obligations.MixingActsBitByBit : Prop :=
  ∀ x y z : Word,
    (not32 x).toNat = 0xFFFFFFFF - x.toNat ∧
    ∀ j, j < 32 →
      (mixF x y z).getLsbD j = (if x.getLsbD j then y.getLsbD j else z.getLsbD j) ∧
      (mixG x y z).getLsbD j = decide (2 ≤ (x.getLsbD j).toNat + (y.getLsbD j).toNat + (z.getLsbD j).toNat) ∧
      (mixH x y z).getLsbD j = decide (((x.getLsbD j).toNat + (y.getLsbD j).toNat + (z.getLsbD j).toNat) % 2 = 1)

/-- R9: `le32`, its inverse `byte32`, and `byte64`. -/
def Obligations.LittleEndianPacking : Prop :=
  (∀ b0 b1 b2 b3 : Byte,
    (le32 b0 b1 b2 b3).toNat = b0.toNat + 2 ^ 8 * b1.toNat + 2 ^ 16 * b2.toNat + 2 ^ 24 * b3.toNat) ∧
  (∀ (v : Word) (j : Nat), j < 4 → (byte32 v j).toNat = v.toNat / 2 ^ (8 * j) % 256) ∧
  (∀ (v j : Nat), v < 2 ^ 64 → j < 8 → (byte64 v j).toNat = v / 2 ^ (8 * j) % 256) ∧
  (∀ v : Word, le32 (byte32 v 0) (byte32 v 1) (byte32 v 2) (byte32 v 3) = v)

/-! ## Padding -/

/-- R101: z is the least number with (L + 1 + z) mod 64 = 56, and its closed forms. -/
def Obligations.ZeroCountIsLeast : Prop :=
  ∀ len : Nat,
    (len + 1 + zeroCount len) % 64 = 56 ∧ (∀ z, (len + 1 + z) % 64 = 56 → zeroCount len ≤ z) ∧
    (zeroCount len : Int) = (55 - (len : Int)) % 64 ∧ zeroCount len = (119 - len % 64) % 64 ∧ zeroCount len ≤ 63 ∧
    (len % 64 ≤ 55 → zeroCount len = 55 - len % 64) ∧ (56 ≤ len % 64 → zeroCount len = 119 - len % 64)

/-- R102 and R109: the padded length and the number of blocks. -/
def Obligations.PaddedLengthIsWholeBlocks : Prop :=
  ∀ m : List Byte,
    (pad m).length = m.length + 1 + zeroCount m.length + 8 ∧ paddedLength m.length = (pad m).length ∧
    (pad m).length = 64 * numBlocks m.length ∧ numBlocks m.length = (pad m).length / 64 ∧
    numBlocks m.length = nb m.length ∧ (pad m).length % 64 = 0 ∧ 64 ≤ (pad m).length ∧
    m.length + 9 ≤ (pad m).length ∧ ((pad m).length = m.length + 9 ↔ zeroCount m.length = 0) ∧
    (pad m).length ≤ m.length + 72

/-- R105 against R100: the byte view that LDBLK reads through shows `Pad(m)`, and nothing beyond it. The
reason of the stop beyond it is the model's (log 13). -/
def Obligations.ByteViewShowsThePaddedMessage : Prop :=
  ∀ (m : List Byte) (s : State), s.Holds m →
    (∀ (a : Nat) (h : a < (pad m).length), pmsgByte s.msg s.mlen a = .ok (pad m)[a]) ∧
    (∀ a, (pad m).length ≤ a → pmsgByte s.msg s.mlen a = .error .beyondPaddedMessage)

/-- R103 and R104: the last eight bytes of Pad(m) are (8 L) mod 2^64, least significant byte first; 2^61 bytes more give
the same eight. -/
def Obligations.LengthFieldIsLittleEndianAndWraps : Prop :=
  (∀ (m : List Byte) (j : Nat), j < 8 →
    ((pad m)[(pad m).length - 8 + j]?).map BitVec.toNat = some (8 * m.length % 2 ^ 64 / 2 ^ (8 * j) % 256)) ∧
  (∀ len : Nat, len64 (len + 2 ^ 61) = len64 len)

/-- R111: below 2^61 bytes distinct messages have distinct padded messages. -/
def Obligations.PaddingIsInjective : Prop :=
  ∀ m m' : List Byte, m.length < 2 ^ 61 → m'.length < 2 ^ 61 → pad m = pad m' → m = m'

/-! ## Encoding -/

/-- R82 and R85: words of every family, written out from the tables. -/
def Obligations.ListedCodesDecode : Prop :=
  decode (.seq 0b00000000) = .instr .halt ∧ decode (.seq 0b01000000) = .instr .ldblk ∧
  decode (.seq 0b10000000) = .instr .ff0 ∧ decode (.seq 0b10001111) = .instr .ff15 ∧
  decode (.seq 0b10010110) = .instr .gg6 ∧ decode (.seq 0b10100001) = .instr .hh1 ∧
  decode (.seq 0b10101111) = .instr .hh15 ∧ decode (.seq 0b11000000) = .instr .feed ∧
  decode (.host { hop := 0b001, hlen := 11, haddr := 0, hbyte := 0, hidx := 0 }) = .instr (.wrlen 11) ∧
  decode (.host { hop := 0b010, hlen := 0, haddr := 7, hbyte := 0xFF, hidx := 0 }) = .instr (.wrmsg 7 0xFF) ∧
  decode (.host { hop := 0b011, hlen := 0, haddr := 0, hbyte := 0, hidx := 0 }) = .instr .start ∧
  decode (.host { hop := 0b110, hlen := 0, haddr := 0, hbyte := 0, hidx := 15 }) = .instr (.rddig 15)

/-- Decoding an encoded well-formed instruction gives it back, with every operand. -/
def Obligations.DecodeOfEncode : Prop :=
  ∀ i : Instr, i.wellFormed = true → decode (encode i) = .instr i

/-- Each code has one meaning: a SEQ value that decodes is the code of what it decodes to, and so is a host word, up to
the ports its operation does not use (R84). -/
def Obligations.EncodeOfDecoded : Prop :=
  (∀ (b : BitVec 8) (i : Instr), decode (.seq b) = .instr i → encode i = .seq b ∧ i.wellFormed = true) ∧
  (∀ (w : HostWord) (i : Instr), decode (.host w) = .instr i → i.wellFormed = true ∧
    encode i = .host
      { hop := w.hop, hlen := if w.hop = 1 then w.hlen else 0, haddr := if w.hop = 2 then w.haddr else 0,
        hbyte := if w.hop = 2 then w.hbyte else 0, hidx := if w.hop = 5 ∨ w.hop = 6 then w.hidx else 0 })

/-- R86: which codes are reserved, and no others (R92). -/
def Obligations.ReservedCodesAreExactly : Prop :=
  (∀ b : BitVec 8, (∃ why, decode (.seq b) = .reserved why) ↔
    (0x01 ≤ b.toNat ∧ b.toNat ≤ 0x3F) ∨ (0x41 ≤ b.toNat ∧ b.toNat ≤ 0x7F) ∨
    (0xB0 ≤ b.toNat ∧ b.toNat ≤ 0xBF) ∨ (0xC1 ≤ b.toNat ∧ b.toNat ≤ 0xFF)) ∧
  (∀ w : HostWord, (∃ why, decode (.host w) = .reserved why) ↔
    w.hop = 0b111 ∨ (w.hop = 0b101 ∧ 4 ≤ w.hidx.toNat))

/-! ## The 48 steps -/

/-- R150 to R157: each step, its code, its value, what it leaves unchanged, what follows it. -/
def Obligations.RoundOneSteps0To7 : Prop :=
  StepRule .ff0 0x80 fF 0 1 2 3 0 3 0x00000000 0x81 .ff1 ∧
  StepRule .ff1 0x81 fF 3 0 1 2 1 7 0x00000000 0x82 .ff2 ∧
  StepRule .ff2 0x82 fF 2 3 0 1 2 11 0x00000000 0x83 .ff3 ∧
  StepRule .ff3 0x83 fF 1 2 3 0 3 19 0x00000000 0x84 .ff4 ∧
  StepRule .ff4 0x84 fF 0 1 2 3 4 3 0x00000000 0x85 .ff5 ∧
  StepRule .ff5 0x85 fF 3 0 1 2 5 7 0x00000000 0x86 .ff6 ∧
  StepRule .ff6 0x86 fF 2 3 0 1 6 11 0x00000000 0x87 .ff7 ∧
  StepRule .ff7 0x87 fF 1 2 3 0 7 19 0x00000000 0x88 .ff8

/-- R158 to R165: each step, its code, its value, what it leaves unchanged, what follows it. -/
def Obligations.RoundOneSteps8To15 : Prop :=
  StepRule .ff8 0x88 fF 0 1 2 3 8 3 0x00000000 0x89 .ff9 ∧
  StepRule .ff9 0x89 fF 3 0 1 2 9 7 0x00000000 0x8A .ff10 ∧
  StepRule .ff10 0x8A fF 2 3 0 1 10 11 0x00000000 0x8B .ff11 ∧
  StepRule .ff11 0x8B fF 1 2 3 0 11 19 0x00000000 0x8C .ff12 ∧
  StepRule .ff12 0x8C fF 0 1 2 3 12 3 0x00000000 0x8D .ff13 ∧
  StepRule .ff13 0x8D fF 3 0 1 2 13 7 0x00000000 0x8E .ff14 ∧
  StepRule .ff14 0x8E fF 2 3 0 1 14 11 0x00000000 0x8F .ff15 ∧
  StepRule .ff15 0x8F fF 1 2 3 0 15 19 0x00000000 0x90 .gg0

/-- R170 to R177: each step, its code, its value, what it leaves unchanged, what follows it. -/
def Obligations.RoundTwoSteps0To7 : Prop :=
  StepRule .gg0 0x90 fG 0 1 2 3 0 3 0x5A827999 0x91 .gg1 ∧
  StepRule .gg1 0x91 fG 3 0 1 2 4 5 0x5A827999 0x92 .gg2 ∧
  StepRule .gg2 0x92 fG 2 3 0 1 8 9 0x5A827999 0x93 .gg3 ∧
  StepRule .gg3 0x93 fG 1 2 3 0 12 13 0x5A827999 0x94 .gg4 ∧
  StepRule .gg4 0x94 fG 0 1 2 3 1 3 0x5A827999 0x95 .gg5 ∧
  StepRule .gg5 0x95 fG 3 0 1 2 5 5 0x5A827999 0x96 .gg6 ∧
  StepRule .gg6 0x96 fG 2 3 0 1 9 9 0x5A827999 0x97 .gg7 ∧
  StepRule .gg7 0x97 fG 1 2 3 0 13 13 0x5A827999 0x98 .gg8

/-- R178 to R185: each step, its code, its value, what it leaves unchanged, what follows it. -/
def Obligations.RoundTwoSteps8To15 : Prop :=
  StepRule .gg8 0x98 fG 0 1 2 3 2 3 0x5A827999 0x99 .gg9 ∧
  StepRule .gg9 0x99 fG 3 0 1 2 6 5 0x5A827999 0x9A .gg10 ∧
  StepRule .gg10 0x9A fG 2 3 0 1 10 9 0x5A827999 0x9B .gg11 ∧
  StepRule .gg11 0x9B fG 1 2 3 0 14 13 0x5A827999 0x9C .gg12 ∧
  StepRule .gg12 0x9C fG 0 1 2 3 3 3 0x5A827999 0x9D .gg13 ∧
  StepRule .gg13 0x9D fG 3 0 1 2 7 5 0x5A827999 0x9E .gg14 ∧
  StepRule .gg14 0x9E fG 2 3 0 1 11 9 0x5A827999 0x9F .gg15 ∧
  StepRule .gg15 0x9F fG 1 2 3 0 15 13 0x5A827999 0xA0 .hh0

/-- R190 to R197: each step, its code, its value, what it leaves unchanged, what follows it. -/
def Obligations.RoundThreeSteps0To7 : Prop :=
  StepRule .hh0 0xA0 fH 0 1 2 3 0 3 0x6ED9EBA1 0xA1 .hh1 ∧
  StepRule .hh1 0xA1 fH 3 0 1 2 8 9 0x6ED9EBA1 0xA2 .hh2 ∧
  StepRule .hh2 0xA2 fH 2 3 0 1 4 11 0x6ED9EBA1 0xA3 .hh3 ∧
  StepRule .hh3 0xA3 fH 1 2 3 0 12 15 0x6ED9EBA1 0xA4 .hh4 ∧
  StepRule .hh4 0xA4 fH 0 1 2 3 2 3 0x6ED9EBA1 0xA5 .hh5 ∧
  StepRule .hh5 0xA5 fH 3 0 1 2 10 9 0x6ED9EBA1 0xA6 .hh6 ∧
  StepRule .hh6 0xA6 fH 2 3 0 1 6 11 0x6ED9EBA1 0xA7 .hh7 ∧
  StepRule .hh7 0xA7 fH 1 2 3 0 14 15 0x6ED9EBA1 0xA8 .hh8

/-- R198 to R205: each step, its code, its value, what it leaves unchanged, what follows it. -/
def Obligations.RoundThreeSteps8To15 : Prop :=
  StepRule .hh8 0xA8 fH 0 1 2 3 1 3 0x6ED9EBA1 0xA9 .hh9 ∧
  StepRule .hh9 0xA9 fH 3 0 1 2 9 9 0x6ED9EBA1 0xAA .hh10 ∧
  StepRule .hh10 0xAA fH 2 3 0 1 5 11 0x6ED9EBA1 0xAB .hh11 ∧
  StepRule .hh11 0xAB fH 1 2 3 0 13 15 0x6ED9EBA1 0xAC .hh12 ∧
  StepRule .hh12 0xAC fH 0 1 2 3 3 3 0x6ED9EBA1 0xAD .hh13 ∧
  StepRule .hh13 0xAD fH 3 0 1 2 11 9 0x6ED9EBA1 0xAE .hh14 ∧
  StepRule .hh14 0xAE fH 2 3 0 1 7 11 0x6ED9EBA1 0xAF .hh15 ∧
  StepRule .hh15 0xAF fH 1 2 3 0 15 15 0x6ED9EBA1 0xC0 .feed

/-- R126, R127 and R128: every step is the generic step, its operands computed from its round r (0 is round 1) and index
n by the formulas, not read from its own rule. -/
def Obligations.StepsFollowTheGenericRule : Prop :=
  ∀ (r : Fin 3) (n : Fin 16) (s : State), ∃ t, exec (stepInstr r n) s = .next t ∧
    ∃ i x y z : Fin 4, ∃ k : Fin 16,
      (i.val + n.val) % 4 = 0 ∧ x.val = (i.val + 1) % 4 ∧ y.val = (i.val + 2) % 4 ∧ z.val = (i.val + 3) % 4 ∧
      k.val = (match r with
        | 0 => n.val
        | 1 => n.val % 4 * 4 + n.val / 4
        | 2 => [0, 8, 4, 12, 2, 10, 6, 14, 1, 9, 5, 13, 3, 11, 7, 15].getD n.val 0) ∧
      t.w[i].toNat =
        rotl (sum4 s.w[i].toNat
            ((match r with | 0 => fF | 1 => fG | 2 => fH) s.w[x] s.w[y] s.w[z]).toNat s.x[k].toNat
            (match r with | 0 => 0x00000000 | 1 => 0x5A827999 | 2 => 0x6ED9EBA1))
          ((match r with | 0 => [3, 7, 11, 19] | 1 => [3, 5, 9, 13] | 2 => [3, 9, 11, 15]).getD (n.val % 4) 0) ∧
      (∀ j : Fin 4, j ≠ i → t.w[j] = s.w[j]) ∧
      encode (stepInstr r n) = .seq (BitVec.ofNat 8 (0x80 + 16 * r.val + n.val)) ∧
      t.seq.toNat = (if r.val = 2 ∧ n.val = 15 then 0xC0 else 0x80 + 16 * r.val + n.val + 1) ∧
      t.x = s.x ∧ t.h = s.h ∧ t.blk = s.blk ∧ t.mlen = s.mlen ∧ t.done = s.done ∧ MsgSame s t ∧ HostSideSame s t

/-- R138: four consecutive steps as assignments to a, d, c, b, "the same values to the same registers". -/
def Obligations.FourStepsAsRotatingNames : Prop :=
  ∀ (r : Fin 3) (q : Nat) (w : Vector Word 4) (x : Vector Word 16), q < 4 →
    let f := mixOf r
    let word : Nat → Word := fun j => x[wordIndex r (Fin.ofNat 16 (4 * q + j))] + romK[r]
    let a := rotl32 (w[0] + f w[1] w[2] w[3] + word 0) (romS[r][0])
    let d := rotl32 (w[3] + f a w[1] w[2] + word 1) (romS[r][1])
    let c := rotl32 (w[2] + f d a w[1] + word 2) (romS[r][2])
    let b := rotl32 (w[1] + f c d a + word 3) (romS[r][3])
    let after : Vector Word 4 → Nat → Vector Word 4 :=
      fun v j => stepWork f (schedule r (Fin.ofNat 16 (4 * q + j))) v x
    after (after (after (after w 0) 1) 2) 3 = #v[a, b, c, d]

/-! ## LDBLK, FEED, HALT -/

/-- R129 and R54: for a block whose message bytes are written, LDBLK loads its sixteen words and copies H to W. -/
def Obligations.LdblkLoadsTheBlock : Prop :=
  decode (.seq 0x40) = .instr .ldblk ∧ encode .ldblk = .seq 0x40 ∧
  ∀ s : State, s.blk < nb s.mlen →
    (∀ j, j < 64 → 64 * s.blk + j < 64 * nb s.mlen) ∧
    ((∀ j, j < 64 → 64 * s.blk + j < s.mlen → (s.msg.read (64 * s.blk + j)).isSome = true) →
      ∃ t, exec .ldblk s = .next t ∧
        (∀ k : Fin 16, t.x[k].toNat = le (padByte s) (64 * s.blk + 4 * k.val)) ∧
        t.w = s.h ∧ t.seq = 0x80 ∧
        t.h = s.h ∧ t.blk = s.blk ∧ t.mlen = s.mlen ∧ t.done = s.done ∧ MsgSame s t ∧ HostSideSame s t)

/-- R264: when LDBLK stops. That LDBLK and not START faults is one of the two places R264 allows (log 4); the first clause,
in ill-formed states, is the model's (log 13). -/
def Obligations.LdblkStopsExactlyWhenAByteIsMissing : Prop :=
  ∀ s : State,
    (nb s.mlen ≤ s.blk → exec .ldblk s = .fault .beyondPaddedMessage) ∧
    (s.blk < nb s.mlen →
      (exec .ldblk s = .fault .unwrittenMessageByte ↔
        ∃ j, j < 64 ∧ 64 * s.blk + j < s.mlen ∧ s.msg.read (64 * s.blk + j) = none)) ∧
    (s.resetPin = false → s.port = [] → s.seq = 0x40 → s.blk < nb s.mlen →
      (∃ j, j < 64 ∧ 64 * s.blk + j < s.mlen ∧ s.msg.read (64 * s.blk + j) = none) →
      ∀ k, 1 ≤ k → run k s = .fault .unwrittenMessageByte)

/-- R131: FEED adds W onto H lane by lane, counts the block, and goes on or ends. -/
def Obligations.FeedAddsLanesAndMovesOn : Prop :=
  decode (.seq 0xC0) = .instr .feed ∧ encode .feed = .seq 0xC0 ∧
  ∀ s : State, ∃ t, exec .feed s = .next t ∧
    (∀ i : Fin 4, t.h[i].toNat = (s.h[i].toNat + s.w[i].toNat) % 2 ^ 32) ∧ t.blk = s.blk + 1 ∧
    (s.blk + 1 < nb s.mlen → t.seq = 0x40 ∧ t.done = s.done) ∧
    (nb s.mlen ≤ s.blk + 1 → t.seq = 0x00 ∧ t.done = true) ∧
    t.w = s.w ∧ t.x = s.x ∧ t.mlen = s.mlen ∧ MsgSame s t ∧ HostSideSame s t

/-- R130: HALT changes nothing, and only START leaves the phase. -/
def Obligations.HaltWaitsForStart : Prop :=
  decode (.seq 0x00) = .instr .halt ∧ encode .halt = .seq 0x00 ∧
  (∀ s : State, exec .halt s = .next s) ∧
  (∀ s t : State, s.seq = 0x00 → step s = .next t → t.seq ≠ 0x00 →
    ∃ w rest, s.port = w :: rest ∧ decodeHost w = .instr .start)

/-! ## Host operations -/

/-- R221: NOP is always accepted, writes nothing, returns nothing. That it leaves the port as a list is log 2, that it
returns nothing as an empty HRES is log 5; both are the model's. -/
def Obligations.NopWritesNothing : Prop :=
  encode .nop = .host (hostCode 0b000) ∧
  ∀ s : State, accepted .nop s = true ∧ ∃ t, exec .nop s = .next t ∧ t.port = s.port.tail ∧ t.hres = none ∧
    t.h = s.h ∧ t.w = s.w ∧ t.x = s.x ∧ t.seq = s.seq ∧ t.blk = s.blk ∧ t.mlen = s.mlen ∧ t.done = s.done ∧
    MsgSame s t ∧ t.resets = s.resets ∧ t.hostFirst = s.hostFirst ∧ t.tick = s.tick

/-- R222: WRLEN writes MLEN only; held unless SEQ = 0x00. -/
def Obligations.WrlenWritesTheLength : Prop :=
  ∀ (len : Nat) (s : State),
    (∃ w, encode (.wrlen len) = .host w ∧ w.hop = 0b001 ∧ w.hlen = len) ∧
    (s.seq = 0x00 → ∃ t, exec (.wrlen len) s = .next t ∧ t.mlen = len ∧
      t.h = s.h ∧ t.w = s.w ∧ t.x = s.x ∧ t.seq = s.seq ∧ t.blk = s.blk ∧ t.done = s.done ∧
      MsgSame s t ∧ t.resets = s.resets ∧ t.hostFirst = s.hostFirst ∧ t.tick = s.tick) ∧
    (s.seq ≠ 0x00 → exec (.wrlen len) s = .next s)

/-- R223: WRMSG writes one byte of MSG and nothing else; held unless SEQ = 0x00. -/
def Obligations.WrmsgWritesOneByte : Prop :=
  ∀ (a : Nat) (b : Byte) (s : State),
    (∃ w, encode (.wrmsg a b) = .host w ∧ w.hop = 0b010 ∧ w.haddr = a ∧ w.hbyte = b) ∧
    (s.seq = 0x00 → ∃ t, exec (.wrmsg a b) s = .next t ∧ t.msg.read a = some b ∧
      (∀ a', a' ≠ a → t.msg.read a' = s.msg.read a') ∧
      t.h = s.h ∧ t.w = s.w ∧ t.x = s.x ∧ t.seq = s.seq ∧ t.blk = s.blk ∧ t.mlen = s.mlen ∧ t.done = s.done ∧
      t.resets = s.resets ∧ t.hostFirst = s.hostFirst ∧ t.tick = s.tick) ∧
    (s.seq ≠ 0x00 → exec (.wrmsg a b) s = .next s)

/-- R224 and R22: START loads H from the IV whatever it held; held unless SEQ = 0x00. -/
def Obligations.StartLoadsTheInitialValue : Prop :=
  encode .start = .host (hostCode 0b011) ∧
  ∀ s : State,
    (s.seq = 0x00 → ∃ t, exec .start s = .next t ∧
      t.h[0].toNat = 0x67452301 ∧ t.h[1].toNat = 0xEFCDAB89 ∧ t.h[2].toNat = 0x98BADCFE ∧
      t.h[3].toNat = 0x10325476 ∧ t.blk = 0 ∧ t.done = false ∧ t.seq = 0x40 ∧
      t.w = s.w ∧ t.x = s.x ∧ t.mlen = s.mlen ∧
      MsgSame s t ∧ t.resets = s.resets ∧ t.hostFirst = s.hostFirst ∧ t.tick = s.tick) ∧
    (s.seq ≠ 0x00 → exec .start s = .next s)

/-- R225: RDSTAT is always accepted and returns BUSY in bit 0, DONE in bit 1; never both in a well-formed state. -/
def Obligations.RdstatReturnsBusyAndDone : Prop :=
  encode .rdstat = .host (hostCode 0b100) ∧
  ∀ s : State, ∃ t, exec .rdstat s = .next t ∧
    (∃ v : Word, t.hres = some v ∧
      v.toNat = (if s.seq.toNat / 64 = 0 then 0 else 1) + (if s.done then 2 else 0) ∧
      (s.WellFormed → v.toNat < 3)) ∧
    t.h = s.h ∧ t.w = s.w ∧ t.x = s.x ∧ t.seq = s.seq ∧ t.blk = s.blk ∧ t.mlen = s.mlen ∧ t.done = s.done ∧
    MsgSame s t ∧ t.resets = s.resets ∧ t.hostFirst = s.hostFirst ∧ t.tick = s.tick

/-- R226: RDH returns a word of H when DONE = 1, is held otherwise, and has no meaning for an index of 4 or more. -/
def Obligations.RdhReturnsAWord : Prop :=
  ∀ (idx : BitVec 4) (s : State),
    (∃ w, encode (.rdh idx) = .host w ∧ w.hop = 0b101 ∧ w.hidx = idx) ∧
    (∀ (h : idx.toNat < 4), s.done = true → ∃ t, exec (.rdh idx) s = .next t ∧ t.hres = some s.h[idx.toNat] ∧
      t.h = s.h ∧ t.w = s.w ∧ t.x = s.x ∧ t.seq = s.seq ∧ t.blk = s.blk ∧ t.mlen = s.mlen ∧ t.done = s.done ∧
      MsgSame s t ∧ t.resets = s.resets ∧ t.hostFirst = s.hostFirst ∧ t.tick = s.tick) ∧
    (idx.toNat < 4 → s.done = false → exec (.rdh idx) s = .next s) ∧
    (4 ≤ idx.toNat → exec (.rdh idx) s = .refused .reservedHidx)

/-- R227: RDDIG returns a byte of the digest, bits 31:8 zero, when DONE = 1, and is held otherwise. -/
def Obligations.RddigReturnsAByte : Prop :=
  ∀ (idx : BitVec 4) (s : State),
    (∃ w, encode (.rddig idx) = .host w ∧ w.hop = 0b110 ∧ w.hidx = idx) ∧
    (s.done = true → ∃ t, exec (.rddig idx) s = .next t ∧
      (∃ v : Word, t.hres = some v ∧
        v.toNat = s.h[idx.toNat / 4].toNat / 2 ^ (8 * (idx.toNat % 4)) % 256) ∧
      t.h = s.h ∧ t.w = s.w ∧ t.x = s.x ∧ t.seq = s.seq ∧ t.blk = s.blk ∧ t.mlen = s.mlen ∧ t.done = s.done ∧
      MsgSame s t ∧ t.resets = s.resets ∧ t.hostFirst = s.hostFirst ∧ t.tick = s.tick) ∧
    (s.done = false → exec (.rddig idx) s = .next s)

/-- R229: in every well-formed state each well-formed host operation is accepted or held as the table says; a held one
changes nothing. The port as a list is the model's (log 2). -/
def Obligations.AcceptanceTable : Prop :=
  ∀ (i : Instr) (s : State), i.agent = .host → i.wellFormed = true → s.WellFormed →
    (AcceptEntry i s → ∃ t, exec i s = .next t ∧ t.port = s.port.tail) ∧
    (¬AcceptEntry i s → exec i s = .next s)

/-- R220, R84: an accepted operation is no longer pending: it leaves the port, and what the host issues after it is next.
The port as a list is the model's (log 2). An operation that returns nothing leaves no result at HRES (U13; log 5). -/
def Obligations.AcceptedOperationsLeaveThePort : Prop :=
  ∀ (i : Instr) (s : State), i.wellFormed = true → accepted i s = true →
    ∃ t, exec i s = .next t ∧ t.port = s.port.tail ∧
      ((t.hres = none ↔ i = .nop ∨ i = .start ∨ (∃ len, i = .wrlen len) ∨ ∃ a b, i = .wrmsg a b))

/-- R67, for every finite capacity c: a WRMSG at c or above and a START of a longer message are refused, every other is
as without a limit. That the check is made when the operation is accepted is the model's (log 9). -/
def Obligations.FiniteCapacityRefuses : Prop :=
  ∀ (c a : Nat) (b : Byte) (s : State),
    (s.seq = 0x00 → c ≤ a → wrmsgWithin (some c) a b s = .refused .beyondCapacity) ∧
    (a < c ∨ s.seq ≠ 0x00 → wrmsgWithin (some c) a b s = exec (.wrmsg a b) s) ∧
    (s.seq = 0x00 → c < s.mlen → startWithin (some c) s = .refused .beyondCapacity) ∧
    (s.mlen ≤ c ∨ s.seq ≠ 0x00 → startWithin (some c) s = exec .start s)

/-! ## The step -/

/-- The sequencer's turn (R220): with no reset, when SEQ decodes to `u` and no acceptable operation goes first, the step
is `u`, and then the next instant: the order is drawn (log 1) and a reset to come is an instant nearer (log 7). -/
def Obligations.StepRunsTheSequencer : Prop :=
  ∀ (s : State) (u : Instr), s.resetPin = false → decode (.seq s.seq) = .instr u →
    (s.port = [] ∨ ∃ w rest i, s.port = w :: rest ∧ decode (.host w) = .instr i ∧
      (accepted i s = false ∨ (s.seq ≠ 0x00 ∧ s.hostFirst = false))) →
    step s = (match exec u s with
      | .next t => .next
          { t with hostFirst := Config.hostFirst t.tick, tick := t.tick + 1, resets := awaitReset t.resets }
      | .fault f => .fault f
      | .refused r => .refused r)

/-- The host's turn (R220): with no reset, when the pending operation decodes to `i`, is accepted, and SEQ is 0x00 or
the host goes first, the step is `i`, and then the next instant: the order is drawn (log 1, log 2) and a reset to come is an instant nearer (log 7). -/
def Obligations.StepRunsTheHostOperation : Prop :=
  ∀ (s : State) (i : Instr) (w : HostWord) (rest : List HostWord), s.resetPin = false →
    legalSeq s.seq = true → s.port = w :: rest → decode (.host w) = .instr i → accepted i s = true →
    (s.seq = 0x00 ∨ s.hostFirst = true) →
    step s = (match exec i s with
      | .next t => .next
          { t with hostFirst := Config.hostFirst t.tick, tick := t.tick + 1, resets := awaitReset t.resets }
      | .fault f => .fault f
      | .refused r => .refused r)

/-- R34 and R260: the reset input, asserted in any state, gives the values of the table, and `State.reset` has them too.
What stands in H, W and X is not said. -/
def Obligations.ResetInputGivesTheResetState : Prop :=
  (∀ s : State, s.resetPin = true → ∃ t, step s = .next t ∧
    t.seq = 0x00 ∧ t.done = false ∧ t.blk = 0 ∧ t.mlen = 0 ∧ ∀ a, t.msg.read a = none) ∧
  State.reset.seq = 0x00 ∧ State.reset.done = false ∧ State.reset.blk = 0 ∧ State.reset.mlen = 0 ∧
  ∀ a, State.reset.msg.read a = none

/-- R270: a reset, in any state, drops the pending operation. What the host had not issued yet stays, what it issues after
the reset follows it; if that is nothing, and no other reset is to come, no digest ever follows. The two lists are the
model's (log 2, log 7). -/
def Obligations.ResetDropsWhatIsPending : Prop :=
  ∀ (s : State) (r : ResetInput) (rest : List ResetInput), s.resets = r :: rest → r.wait = 0 →
    ∃ t, step s = .next t ∧ t.port = s.port.tail ++ r.thenIssue ∧ t.resets = rest ∧
      (t.port = [] → rest = [] → ∀ k, ∃ u, run k t = .next u ∧ u.seq = 0x00 ∧ u.done = false ∧ u.h = t.h)

/-- R86: a reserved SEQ and a reserved operation at the port are refused, whatever the rest of the state.
That they are refused at once, SEQ first, is the model's (log 11). -/
def Obligations.ReservedCodesAreRefused : Prop :=
  ∀ s : State, s.resetPin = false →
    (legalSeq s.seq = false → step s = .refused .reservedSeq) ∧
    (legalSeq s.seq = true → ∀ w rest, s.port = w :: rest →
      (w.hop = 0b111 → step s = .refused .reservedHop) ∧
      (w.hop = 0b101 → 4 ≤ w.hidx.toNat → step s = .refused .reservedHidx))

/-- R231: a read of the digest with none and no hash running is held for ever: each step leaves everything but the
model's own instant as it is, and the state is stuck again, and not final. The hold as a step and what
a final state is are the model's (log 8, log 21). -/
def Obligations.DigestReadWithoutAHashIsStuck : Prop :=
  ∀ s : State, s.Stuck → ¬s.Final ∧ ∃ t, step s = .next t ∧ t.Stuck ∧
    t = { s with hostFirst := t.hostFirst, tick := t.tick }

/-! ## What every step keeps -/

/-- R36: reset gives a well-formed state, with MSG in its canonical form. -/
def Obligations.ResetIsWellFormed : Prop :=
  State.reset.WellFormed ∧ ∀ s : State, s.takeReset.WellFormed

/-- R36: every step from a well-formed state that answers a next state answers a well-formed one. The canonical
form of MSG, its last clause, is the model's representation. -/
def Obligations.StepKeepsWellFormed : Prop :=
  ∀ s t : State, s.WellFormed → step s = .next t → t.WellFormed

/-- R136, R240: the next step of a well-formed machine whose message is written, if it is busy, and whose host issues
nothing reserved, does not stop; and only a START over a message that is not written (R264) takes that premise away. -/
def Obligations.NothingStopsAWrittenMessage : Prop :=
  ∀ s : State, s.WellFormed → (busy s = true → s.MessageWritten) → s.PortLegal →
    ∃ t, step s = .next t ∧ t.WellFormed ∧ t.PortLegal ∧
      ((busy t = true → t.MessageWritten) ∨
        (¬s.MessageWritten ∧ ∃ w rest, s.port = w :: rest ∧ decodeHost w = .instr .start))

/-- The column "written by" of R20, over all instructions. -/
def Obligations.OnlyTheListedOperationsWrite : Prop :=
  ∀ (i : Instr) (s t : State), exec i s = .next t →
    (t.h ≠ s.h → i = .start ∨ i = .feed) ∧
    (t.w ≠ s.w → i = .ldblk ∨ ∃ r n, i = stepInstr r n) ∧
    (t.x ≠ s.x → i = .ldblk) ∧
    (t.seq ≠ s.seq → i = .start ∨ i.agent = .sequencer) ∧
    (t.blk ≠ s.blk → i = .start ∨ i = .feed) ∧
    (t.mlen ≠ s.mlen → ∃ len, i = .wrlen len) ∧
    (t.done ≠ s.done → i = .start ∨ i = .feed) ∧
    (∀ a, t.msg.read a ≠ s.msg.read a → ∃ b, i = .wrmsg a b) ∧
    (t.port ≠ s.port ∨ t.hres ≠ s.hres → i.agent = .host) ∧
    t.resets = s.resets ∧ t.hostFirst = s.hostFirst ∧ t.tick = s.tick

/-- R33, R213: while DONE = 1 nothing but START (or reset) writes H or clears DONE. -/
def Obligations.DigestIsFrozen : Prop :=
  ∀ s t : State, s.WellFormed → s.resetPin = false → s.done = true → step s = .next t →
    (t.h = s.h ∧ t.done = true) ∨ ∃ w rest, s.port = w :: rest ∧ decodeHost w = .instr .start

/-- R51, R262: no step of a running hash changes MSG or MLEN. -/
def Obligations.MessageIsImmutableWhileHashed : Prop :=
  ∀ s t : State, s.seq ≠ 0x00 → s.resetPin = false → step s = .next t → t.mlen = s.mlen ∧ MsgSame s t

/-- R236, R243: when the sequencer and the host could both go, the two orders give the same state but for HRES, and with
NOP the same HRES; and a fault of the micro-operation is the same fault after the host's operation. -/
def Obligations.BothOrdersAgree : Prop :=
  ∀ (s : State) (u i : Instr), s.WellFormed → s.seq ≠ 0x00 → decodeSeq s.seq = .instr u → i.agent = .host →
    accepted i s = true →
    ∃ s', exec i s = .next s' ∧
      (∀ f, exec u s = .fault f → exec u s' = .fault f) ∧
      (∀ t, exec u s = .next t → ∃ t' t'', exec u s' = .next t' ∧ exec i t = .next t'' ∧
        t'' = { t' with hres := t''.hres } ∧ (i = .nop → t'' = t'))

/-- R35: what a host operation returns, and whether it is accepted, depends on BUSY, on DONE and, when DONE = 1, on H: two
well-formed states that agree on these show the host the same, whatever is in W, X, BLK, MLEN, MSG and the step number,
and in H while DONE = 0. -/
def Obligations.HostCannotSeeHiddenState : Prop :=
  ∀ (i : Instr) (s s' t t' : State), i.agent = .host → s.WellFormed → s'.WellFormed → busy s = busy s' →
    s.done = s'.done → (s.done = true → s.h = s'.h) → s.port = s'.port → s.hres = s'.hres →
    exec i s = .next t → exec i s' = .next t' → t.hres = t'.hres ∧ t.port = t'.port

/-- R139: which micro-operations follow depends on SEQ, BLK and MLEN alone, never on message bytes or intermediate
values. -/
def Obligations.SequenceDependsOnLengthAlone : Prop :=
  ∀ (i : Instr) (s s' t t' : State), i.agent = .sequencer → s.seq = s'.seq → s.blk = s'.blk → s.mlen = s'.mlen →
    s.done = s'.done → exec i s = .next t → exec i s' = .next t' →
    t.seq = t'.seq ∧ t.blk = t'.blk ∧ t.mlen = t'.mlen ∧ t.done = t'.done

/-! ## The hash -/

/-- R132: LDBLK, the 48 steps and FEED, run by the sequencer, leave `Compress(H, block BLK)` in H. -/
def Obligations.FiftyMicroOperationsCompressABlock : Prop :=
  ∀ (m : List Byte) (s : State), s.Holds m → s.NoResetFor 50 → s.port = [] → s.seq = 0x40 →
    s.blk < numBlocks m.length →
    ∃ t, run 50 s = .next t ∧ t.h = compress s.h (blockOf m s.blk) ∧ t.blk = s.blk + 1 ∧ t.Holds m ∧
      (s.blk + 1 < numBlocks m.length → t.seq = 0x40 ∧ t.done = s.done) ∧
      (s.blk + 1 = numBlocks m.length → t.seq = 0x00 ∧ t.done = true)

/-- R224, R134: an accepted START begins a hash of the message in MSG and MLEN, with all 50 NB micro-operations to go. -/
def Obligations.StartBeginsTheHash : Prop :=
  ∀ (m : List Byte) (s : State), s.Holds m → s.seq = 0x00 →
    ∃ t, exec .start s = .next t ∧ t.Hashing m ∧ t.remaining (numBlocks m.length) = 50 * numBlocks m.length

/-- R134, R135, R230, R236: while a hash of `m` is in progress every step, whichever agent it is and whatever (not
reserved) stands at the port, keeps it in progress or ends it with `Hash(m)` in H; a step of the sequencer brings the end
nearer by one, and one of the host takes an operation from the port (a list: log 2). -/
def Obligations.EveryStepAdvancesTheHash : Prop :=
  ∀ (m : List Byte) (s : State), s.Hashing m → s.resetPin = false → s.PortLegal →
    ∃ t, step s = .next t ∧ t.PortLegal ∧ t.resets = awaitReset s.resets ∧ (t.Hashing m ∨ (t.HasDigest m ∧ t.Holds m)) ∧
      ((t.remaining (numBlocks m.length) + 1 = s.remaining (numBlocks m.length) ∧ t.port = s.port) ∨
       (t.remaining (numBlocks m.length) = s.remaining (numBlocks m.length) ∧ ∃ w, s.port = w :: t.port))

/-- R228, R135: from any state that holds `m` in phase HALT, START and then exactly 50 NB micro-operations give DONE = 1
with H = Hash(m), and DONE is 0 at every instant between. -/
def Obligations.StartDeliversTheHash : Prop :=
  ∀ (m : List Byte) (s : State), s.Holds m → s.seq = 0x00 → s.NoResetFor (1 + 50 * numBlocks m.length) →
    s.port = [hostWordOf .start] →
    (∃ t, run (1 + 50 * numBlocks m.length) s = .next t ∧ t.done = true ∧ t.h = Machine.hash m ∧ t.seq = 0x00 ∧
      t.blk = numBlocks m.length ∧ t.Holds m ∧ t.port = []) ∧
    (∀ k, k < 50 * numBlocks m.length → ∃ t, run (1 + k) s = .next t ∧ t.done = false)

/-! ## The digest -/

/-- R210, R212: sixteen bytes, words in the order H[0] to H[3], each least significant byte first. -/
def Obligations.DigestBytesInStateOrder : Prop :=
  ∀ h : Vector Word 4, (digestBytes h).length = 16 ∧
    ∀ j : Fin 16, ((digestBytes h)[j.val]?).map BitVec.toNat =
      some (h[j.val / 4].toNat / 2 ^ (8 * (j.val % 4)) % 256)

/-- R211: 32 characters, the high nibble of each byte first, digits `0123456789abcdef`. -/
def Obligations.HexTextHighNibbleFirst : Prop :=
  ∀ h : Vector Word 4, (digestHex h).length = 32 ∧
    ∀ j : Fin 16,
      (digestHexChars h)[2 * j.val]? = "0123456789abcdef".toList[(digByte h j).toNat / 16]? ∧
      (digestHexChars h)[2 * j.val + 1]? = "0123456789abcdef".toList[(digByte h j).toNat % 16]?

/-- R214: two digests are equal exactly when their words are, exactly when their bytes are, exactly when their texts
are. -/
def Obligations.DigestEqualityIsOfWords : Prop :=
  ∀ h h' : Vector Word 4,
    (digestEq h h' = true ↔ ∀ i : Fin 4, h[i] = h'[i]) ∧
    (digestEq h h' = true ↔ digestBytes h = digestBytes h') ∧
    (digestEq h h' = true ↔ digestHex h = digestHex h')

/-- R66, R216: the four RDDIG bytes of a word are the bytes of what RDH returns, least significant first. -/
def Obligations.WordAndByteReadsAgree : Prop :=
  ∀ (s : State) (i : BitVec 4), s.done = true → i.toNat < 4 →
    ∃ (u t0 t1 t2 t3 : State) (v b0 b1 b2 b3 : Word),
      exec (.rdh i) s = .next u ∧ u.hres = some v ∧
      exec (.rddig (4 * i)) s = .next t0 ∧ t0.hres = some b0 ∧
      exec (.rddig (4 * i + 1)) s = .next t1 ∧ t1.hres = some b1 ∧
      exec (.rddig (4 * i + 2)) s = .next t2 ∧ t2.hres = some b2 ∧
      exec (.rddig (4 * i + 3)) s = .next t3 ∧ t3.hres = some b3 ∧
      v.toNat = b0.toNat + 2 ^ 8 * b1.toNat + 2 ^ 16 * b2.toNat + 2 ^ 24 * b3.toNat

/-! ## A reset in a run -/

/-- R270: a reset asserted `k` instants into a running hash, while micro-operations are still to go, abandons it: until then
the hash goes on, and then the machine is in the reset state, with no digest, and the host goes on with what it issues after
the reset; an RDSTAT issued there returns 0 (95_test_vectors.md, P6). When the reset comes, and what the host issues after
it, is in the state's list (log 7). -/
def Obligations.ResetAbandonsARunningHash : Prop :=
  ∀ (m : List Byte) (s : State) (k : Nat) (ops : List HostWord) (rest : List ResetInput), s.Hashing m → s.port = [] →
    s.resets = { wait := k, thenIssue := ops } :: rest → k < s.remaining (numBlocks m.length) →
    (∃ v, run k s = .next v ∧ v.Hashing m) ∧
    ∃ t, run (k + 1) s = .next t ∧ t.seq = 0x00 ∧ t.done = false ∧ t.blk = 0 ∧ t.mlen = 0 ∧
      (∀ a, t.msg.read a = none) ∧ t.port = ops ∧ t.resets = rest ∧
      (∀ more, ops = hostWordOf .rdstat :: more → t.resetPin = false →
        ∃ u, run (k + 2) s = .next u ∧ u.hres = some 0 ∧ u.port = more)
end

