-- ==== Sys2Proof/Laws/State.lean ====
section
/-! SUPPORT. One lemma per field per update of the state, so that no proof unfolds a record update. -/

namespace Sys2Proof.Machine

open Sys2Proof

variable (s : State)

@[simp] theorem State.setH_h (v : Vector Word 4) : (s.setH v).h = v := rfl
@[simp] theorem State.setH_w (v : Vector Word 4) : (s.setH v).w = s.w := rfl
@[simp] theorem State.setH_x (v : Vector Word 4) : (s.setH v).x = s.x := rfl
@[simp] theorem State.setH_seq (v : Vector Word 4) : (s.setH v).seq = s.seq := rfl
@[simp] theorem State.setH_blk (v : Vector Word 4) : (s.setH v).blk = s.blk := rfl
@[simp] theorem State.setH_mlen (v : Vector Word 4) : (s.setH v).mlen = s.mlen := rfl
@[simp] theorem State.setH_done (v : Vector Word 4) : (s.setH v).done = s.done := rfl
@[simp] theorem State.setH_msg (v : Vector Word 4) : (s.setH v).msg = s.msg := rfl
@[simp] theorem State.setH_hres (v : Vector Word 4) : (s.setH v).hres = s.hres := rfl
@[simp] theorem State.setH_port (v : Vector Word 4) : (s.setH v).port = s.port := rfl
@[simp] theorem State.setH_resets (v : Vector Word 4) : (s.setH v).resets = s.resets := rfl
@[simp] theorem State.setH_resetPin (v : Vector Word 4) : (s.setH v).resetPin = s.resetPin := rfl
@[simp] theorem State.setH_hostFirst (v : Vector Word 4) : (s.setH v).hostFirst = s.hostFirst := rfl
@[simp] theorem State.setH_tick (v : Vector Word 4) : (s.setH v).tick = s.tick := rfl

@[simp] theorem State.setW_h (v : Vector Word 4) : (s.setW v).h = s.h := rfl
@[simp] theorem State.setW_w (v : Vector Word 4) : (s.setW v).w = v := rfl
@[simp] theorem State.setW_x (v : Vector Word 4) : (s.setW v).x = s.x := rfl
@[simp] theorem State.setW_seq (v : Vector Word 4) : (s.setW v).seq = s.seq := rfl
@[simp] theorem State.setW_blk (v : Vector Word 4) : (s.setW v).blk = s.blk := rfl
@[simp] theorem State.setW_mlen (v : Vector Word 4) : (s.setW v).mlen = s.mlen := rfl
@[simp] theorem State.setW_done (v : Vector Word 4) : (s.setW v).done = s.done := rfl
@[simp] theorem State.setW_msg (v : Vector Word 4) : (s.setW v).msg = s.msg := rfl
@[simp] theorem State.setW_hres (v : Vector Word 4) : (s.setW v).hres = s.hres := rfl
@[simp] theorem State.setW_port (v : Vector Word 4) : (s.setW v).port = s.port := rfl
@[simp] theorem State.setW_resets (v : Vector Word 4) : (s.setW v).resets = s.resets := rfl
@[simp] theorem State.setW_resetPin (v : Vector Word 4) : (s.setW v).resetPin = s.resetPin := rfl
@[simp] theorem State.setW_hostFirst (v : Vector Word 4) : (s.setW v).hostFirst = s.hostFirst := rfl
@[simp] theorem State.setW_tick (v : Vector Word 4) : (s.setW v).tick = s.tick := rfl

@[simp] theorem State.setX_h (v : Vector Word 16) : (s.setX v).h = s.h := rfl
@[simp] theorem State.setX_w (v : Vector Word 16) : (s.setX v).w = s.w := rfl
@[simp] theorem State.setX_x (v : Vector Word 16) : (s.setX v).x = v := rfl
@[simp] theorem State.setX_seq (v : Vector Word 16) : (s.setX v).seq = s.seq := rfl
@[simp] theorem State.setX_blk (v : Vector Word 16) : (s.setX v).blk = s.blk := rfl
@[simp] theorem State.setX_mlen (v : Vector Word 16) : (s.setX v).mlen = s.mlen := rfl
@[simp] theorem State.setX_done (v : Vector Word 16) : (s.setX v).done = s.done := rfl
@[simp] theorem State.setX_msg (v : Vector Word 16) : (s.setX v).msg = s.msg := rfl
@[simp] theorem State.setX_hres (v : Vector Word 16) : (s.setX v).hres = s.hres := rfl
@[simp] theorem State.setX_port (v : Vector Word 16) : (s.setX v).port = s.port := rfl
@[simp] theorem State.setX_resets (v : Vector Word 16) : (s.setX v).resets = s.resets := rfl
@[simp] theorem State.setX_resetPin (v : Vector Word 16) : (s.setX v).resetPin = s.resetPin := rfl
@[simp] theorem State.setX_hostFirst (v : Vector Word 16) : (s.setX v).hostFirst = s.hostFirst := rfl
@[simp] theorem State.setX_tick (v : Vector Word 16) : (s.setX v).tick = s.tick := rfl

@[simp] theorem State.setSeq_h (v : BitVec 8) : (s.setSeq v).h = s.h := rfl
@[simp] theorem State.setSeq_w (v : BitVec 8) : (s.setSeq v).w = s.w := rfl
@[simp] theorem State.setSeq_x (v : BitVec 8) : (s.setSeq v).x = s.x := rfl
@[simp] theorem State.setSeq_seq (v : BitVec 8) : (s.setSeq v).seq = v := rfl
@[simp] theorem State.setSeq_blk (v : BitVec 8) : (s.setSeq v).blk = s.blk := rfl
@[simp] theorem State.setSeq_mlen (v : BitVec 8) : (s.setSeq v).mlen = s.mlen := rfl
@[simp] theorem State.setSeq_done (v : BitVec 8) : (s.setSeq v).done = s.done := rfl
@[simp] theorem State.setSeq_msg (v : BitVec 8) : (s.setSeq v).msg = s.msg := rfl
@[simp] theorem State.setSeq_hres (v : BitVec 8) : (s.setSeq v).hres = s.hres := rfl
@[simp] theorem State.setSeq_port (v : BitVec 8) : (s.setSeq v).port = s.port := rfl
@[simp] theorem State.setSeq_resets (v : BitVec 8) : (s.setSeq v).resets = s.resets := rfl
@[simp] theorem State.setSeq_resetPin (v : BitVec 8) : (s.setSeq v).resetPin = s.resetPin := rfl
@[simp] theorem State.setSeq_hostFirst (v : BitVec 8) : (s.setSeq v).hostFirst = s.hostFirst := rfl
@[simp] theorem State.setSeq_tick (v : BitVec 8) : (s.setSeq v).tick = s.tick := rfl

@[simp] theorem State.setBlk_h (v : Nat) : (s.setBlk v).h = s.h := rfl
@[simp] theorem State.setBlk_w (v : Nat) : (s.setBlk v).w = s.w := rfl
@[simp] theorem State.setBlk_x (v : Nat) : (s.setBlk v).x = s.x := rfl
@[simp] theorem State.setBlk_seq (v : Nat) : (s.setBlk v).seq = s.seq := rfl
@[simp] theorem State.setBlk_blk (v : Nat) : (s.setBlk v).blk = v := rfl
@[simp] theorem State.setBlk_mlen (v : Nat) : (s.setBlk v).mlen = s.mlen := rfl
@[simp] theorem State.setBlk_done (v : Nat) : (s.setBlk v).done = s.done := rfl
@[simp] theorem State.setBlk_msg (v : Nat) : (s.setBlk v).msg = s.msg := rfl
@[simp] theorem State.setBlk_hres (v : Nat) : (s.setBlk v).hres = s.hres := rfl
@[simp] theorem State.setBlk_port (v : Nat) : (s.setBlk v).port = s.port := rfl
@[simp] theorem State.setBlk_resets (v : Nat) : (s.setBlk v).resets = s.resets := rfl
@[simp] theorem State.setBlk_resetPin (v : Nat) : (s.setBlk v).resetPin = s.resetPin := rfl
@[simp] theorem State.setBlk_hostFirst (v : Nat) : (s.setBlk v).hostFirst = s.hostFirst := rfl
@[simp] theorem State.setBlk_tick (v : Nat) : (s.setBlk v).tick = s.tick := rfl

@[simp] theorem State.setMlen_h (v : Nat) : (s.setMlen v).h = s.h := rfl
@[simp] theorem State.setMlen_w (v : Nat) : (s.setMlen v).w = s.w := rfl
@[simp] theorem State.setMlen_x (v : Nat) : (s.setMlen v).x = s.x := rfl
@[simp] theorem State.setMlen_seq (v : Nat) : (s.setMlen v).seq = s.seq := rfl
@[simp] theorem State.setMlen_blk (v : Nat) : (s.setMlen v).blk = s.blk := rfl
@[simp] theorem State.setMlen_mlen (v : Nat) : (s.setMlen v).mlen = v := rfl
@[simp] theorem State.setMlen_done (v : Nat) : (s.setMlen v).done = s.done := rfl
@[simp] theorem State.setMlen_msg (v : Nat) : (s.setMlen v).msg = s.msg := rfl
@[simp] theorem State.setMlen_hres (v : Nat) : (s.setMlen v).hres = s.hres := rfl
@[simp] theorem State.setMlen_port (v : Nat) : (s.setMlen v).port = s.port := rfl
@[simp] theorem State.setMlen_resets (v : Nat) : (s.setMlen v).resets = s.resets := rfl
@[simp] theorem State.setMlen_resetPin (v : Nat) : (s.setMlen v).resetPin = s.resetPin := rfl
@[simp] theorem State.setMlen_hostFirst (v : Nat) : (s.setMlen v).hostFirst = s.hostFirst := rfl
@[simp] theorem State.setMlen_tick (v : Nat) : (s.setMlen v).tick = s.tick := rfl

@[simp] theorem State.setDone_h (v : Bool) : (s.setDone v).h = s.h := rfl
@[simp] theorem State.setDone_w (v : Bool) : (s.setDone v).w = s.w := rfl
@[simp] theorem State.setDone_x (v : Bool) : (s.setDone v).x = s.x := rfl
@[simp] theorem State.setDone_seq (v : Bool) : (s.setDone v).seq = s.seq := rfl
@[simp] theorem State.setDone_blk (v : Bool) : (s.setDone v).blk = s.blk := rfl
@[simp] theorem State.setDone_mlen (v : Bool) : (s.setDone v).mlen = s.mlen := rfl
@[simp] theorem State.setDone_done (v : Bool) : (s.setDone v).done = v := rfl
@[simp] theorem State.setDone_msg (v : Bool) : (s.setDone v).msg = s.msg := rfl
@[simp] theorem State.setDone_hres (v : Bool) : (s.setDone v).hres = s.hres := rfl
@[simp] theorem State.setDone_port (v : Bool) : (s.setDone v).port = s.port := rfl
@[simp] theorem State.setDone_resets (v : Bool) : (s.setDone v).resets = s.resets := rfl
@[simp] theorem State.setDone_resetPin (v : Bool) : (s.setDone v).resetPin = s.resetPin := rfl
@[simp] theorem State.setDone_hostFirst (v : Bool) : (s.setDone v).hostFirst = s.hostFirst := rfl
@[simp] theorem State.setDone_tick (v : Bool) : (s.setDone v).tick = s.tick := rfl

@[simp] theorem State.setMsg_h (v : Memory) : (s.setMsg v).h = s.h := rfl
@[simp] theorem State.setMsg_w (v : Memory) : (s.setMsg v).w = s.w := rfl
@[simp] theorem State.setMsg_x (v : Memory) : (s.setMsg v).x = s.x := rfl
@[simp] theorem State.setMsg_seq (v : Memory) : (s.setMsg v).seq = s.seq := rfl
@[simp] theorem State.setMsg_blk (v : Memory) : (s.setMsg v).blk = s.blk := rfl
@[simp] theorem State.setMsg_mlen (v : Memory) : (s.setMsg v).mlen = s.mlen := rfl
@[simp] theorem State.setMsg_done (v : Memory) : (s.setMsg v).done = s.done := rfl
@[simp] theorem State.setMsg_msg (v : Memory) : (s.setMsg v).msg = v := rfl
@[simp] theorem State.setMsg_hres (v : Memory) : (s.setMsg v).hres = s.hres := rfl
@[simp] theorem State.setMsg_port (v : Memory) : (s.setMsg v).port = s.port := rfl
@[simp] theorem State.setMsg_resets (v : Memory) : (s.setMsg v).resets = s.resets := rfl
@[simp] theorem State.setMsg_resetPin (v : Memory) : (s.setMsg v).resetPin = s.resetPin := rfl
@[simp] theorem State.setMsg_hostFirst (v : Memory) : (s.setMsg v).hostFirst = s.hostFirst := rfl
@[simp] theorem State.setMsg_tick (v : Memory) : (s.setMsg v).tick = s.tick := rfl

@[simp] theorem State.accept_h (r : Option Word) : (s.accept r).h = s.h := rfl
@[simp] theorem State.accept_w (r : Option Word) : (s.accept r).w = s.w := rfl
@[simp] theorem State.accept_x (r : Option Word) : (s.accept r).x = s.x := rfl
@[simp] theorem State.accept_seq (r : Option Word) : (s.accept r).seq = s.seq := rfl
@[simp] theorem State.accept_blk (r : Option Word) : (s.accept r).blk = s.blk := rfl
@[simp] theorem State.accept_mlen (r : Option Word) : (s.accept r).mlen = s.mlen := rfl
@[simp] theorem State.accept_done (r : Option Word) : (s.accept r).done = s.done := rfl
@[simp] theorem State.accept_msg (r : Option Word) : (s.accept r).msg = s.msg := rfl
@[simp] theorem State.accept_hres (r : Option Word) : (s.accept r).hres = r := rfl
@[simp] theorem State.accept_port (r : Option Word) : (s.accept r).port = s.port.tail := rfl
@[simp] theorem State.accept_resets (r : Option Word) : (s.accept r).resets = s.resets := rfl
@[simp] theorem State.accept_resetPin (r : Option Word) : (s.accept r).resetPin = s.resetPin := rfl
@[simp] theorem State.accept_hostFirst (r : Option Word) : (s.accept r).hostFirst = s.hostFirst := rfl
@[simp] theorem State.accept_tick (r : Option Word) : (s.accept r).tick = s.tick := rfl

@[simp] theorem State.drawOrder_h : s.drawOrder.h = s.h := rfl
@[simp] theorem State.drawOrder_w : s.drawOrder.w = s.w := rfl
@[simp] theorem State.drawOrder_x : s.drawOrder.x = s.x := rfl
@[simp] theorem State.drawOrder_seq : s.drawOrder.seq = s.seq := rfl
@[simp] theorem State.drawOrder_blk : s.drawOrder.blk = s.blk := rfl
@[simp] theorem State.drawOrder_mlen : s.drawOrder.mlen = s.mlen := rfl
@[simp] theorem State.drawOrder_done : s.drawOrder.done = s.done := rfl
@[simp] theorem State.drawOrder_msg : s.drawOrder.msg = s.msg := rfl
@[simp] theorem State.drawOrder_hres : s.drawOrder.hres = s.hres := rfl
@[simp] theorem State.drawOrder_port : s.drawOrder.port = s.port := rfl
@[simp] theorem State.drawOrder_resets : s.drawOrder.resets = s.resets := rfl
@[simp] theorem State.drawOrder_resetPin : s.drawOrder.resetPin = s.resetPin := rfl
@[simp] theorem State.drawOrder_hostFirst : s.drawOrder.hostFirst = Config.hostFirst s.tick := rfl
@[simp] theorem State.drawOrder_tick : s.drawOrder.tick = s.tick + 1 := rfl

theorem State.resetPin_of_cons {r : ResetInput} {rest : List ResetInput} (h : s.resets = r :: rest) :
    s.resetPin = decide (r.wait = 0) := by simp [State.resetPin, h]
theorem State.portAfterReset_of_cons {r : ResetInput} {rest : List ResetInput} (h : s.resets = r :: rest) :
    s.portAfterReset = s.port.tail ++ r.thenIssue := by simp [State.portAfterReset, h]
theorem State.resetPin_of_nil (h : s.resets = []) : s.resetPin = false := by simp [State.resetPin, h]

@[simp] theorem awaitReset_nil : awaitReset [] = [] := rfl
@[simp] theorem awaitReset_cons (r : ResetInput) (rest : List ResetInput) :
    awaitReset (r :: rest) = { r with wait := r.wait - 1 } :: rest := rfl

/-- Waiting changes no operation that a reset brings. -/
@[simp] theorem awaitReset_flatMap (l : List ResetInput) :
    (awaitReset l).flatMap (·.thenIssue) = l.flatMap (·.thenIssue) := by
  cases l <;> rfl

@[simp] theorem State.nextInstant_h : s.nextInstant.h = s.h := rfl
@[simp] theorem State.nextInstant_w : s.nextInstant.w = s.w := rfl
@[simp] theorem State.nextInstant_x : s.nextInstant.x = s.x := rfl
@[simp] theorem State.nextInstant_seq : s.nextInstant.seq = s.seq := rfl
@[simp] theorem State.nextInstant_blk : s.nextInstant.blk = s.blk := rfl
@[simp] theorem State.nextInstant_mlen : s.nextInstant.mlen = s.mlen := rfl
@[simp] theorem State.nextInstant_done : s.nextInstant.done = s.done := rfl
@[simp] theorem State.nextInstant_msg : s.nextInstant.msg = s.msg := rfl
@[simp] theorem State.nextInstant_hres : s.nextInstant.hres = s.hres := rfl
@[simp] theorem State.nextInstant_port : s.nextInstant.port = s.port := rfl
@[simp] theorem State.nextInstant_resets : s.nextInstant.resets = awaitReset s.resets := rfl
@[simp] theorem State.nextInstant_hostFirst : s.nextInstant.hostFirst = Config.hostFirst s.tick := rfl
@[simp] theorem State.nextInstant_tick : s.nextInstant.tick = s.tick + 1 := rfl

@[simp] theorem State.takeReset_seq : s.takeReset.seq = 0x00 := rfl
@[simp] theorem State.takeReset_blk : s.takeReset.blk = 0 := rfl
@[simp] theorem State.takeReset_mlen : s.takeReset.mlen = 0 := rfl
@[simp] theorem State.takeReset_done : s.takeReset.done = false := rfl
@[simp] theorem State.takeReset_msg : s.takeReset.msg = [] := rfl
@[simp] theorem State.takeReset_hres : s.takeReset.hres = none := rfl
@[simp] theorem State.takeReset_port : s.takeReset.port = s.portAfterReset := rfl
@[simp] theorem State.takeReset_resets : s.takeReset.resets = s.resets.tail := rfl
@[simp] theorem State.takeReset_hostFirst : s.takeReset.hostFirst = s.hostFirst := rfl
@[simp] theorem State.takeReset_tick : s.takeReset.tick = s.tick := rfl

end Sys2Proof.Machine
end

