-- ==== Sys2Proof/Laws/Memory.lean ====
section
/-! SUPPORT. The laws of MSG: what a read answers after a write, and that writing keeps the canonical form. -/

namespace Sys2Proof.Machine

open Sys2Proof

@[simp] theorem Memory.read_nil (a : Nat) : Memory.read [] a = none := rfl

/-- The byte written is the byte read (R223: "the last write wins"). -/
@[simp] theorem Memory.read_write_same (m : Memory) (a : Nat) (b : Byte) : (m.write a b).read a = some b := by
  induction m with
  | nil => simp [Memory.write, Memory.read]
  | cons c rest ih =>
    obtain ⟨a', b'⟩ := c
    simp only [Memory.write]
    split
    · simp [Memory.read]
    · split
      · simp [Memory.read]
      · simp [Memory.read, *]

/-- A write leaves every other address alone (R223: "Writes MSG[a] only"). -/
theorem Memory.read_write_other (m : Memory) {a a' : Nat} (b : Byte) (h : a' ≠ a) :
    (m.write a b).read a' = m.read a' := by
  induction m with
  | nil => simp [Memory.write, Memory.read, h]
  | cons c rest ih =>
    obtain ⟨a₁, b₁⟩ := c
    simp only [Memory.write]
    split
    · simp [Memory.read, h]
    · split
      · rename_i heq
        subst heq
        simp [Memory.read, h]
      · simp [Memory.read, ih]

/-- Reading after a write, both cases at once. -/
theorem Memory.read_write (m : Memory) (a a' : Nat) (b : Byte) :
    (m.write a b).read a' = if a' = a then some b else m.read a' := by
  split
  · subst a'; simp
  · exact m.read_write_other b ‹_›

/-- Canonical form of a list with a first entry: that entry's address is below the next one's, and the rest is
canonical. -/
theorem Memory.wf_cons (c : Host.Cell) (rest : Memory) :
    Memory.wf (c :: rest) = true ↔ (∀ c' ∈ rest.head?, c.1 < c'.1) ∧ rest.wf = true := by
  obtain ⟨a, b⟩ := c
  cases rest with
  | nil => simp [Memory.wf]
  | cons c' rest => obtain ⟨a', b'⟩ := c'; simp [Memory.wf]

/-- The first address after a write is the one written or the first one before. -/
theorem Memory.head_write (m : Memory) (a : Nat) (b : Byte) (c : Host.Cell) (h : c ∈ (m.write a b).head?) :
    c.1 = a ∨ ∃ c' ∈ m.head?, c.1 = c'.1 := by
  cases m with
  | nil => simp [Memory.write] at h; simp [← h]
  | cons c' rest =>
    obtain ⟨a', b'⟩ := c'
    simp only [Memory.write] at h
    split at h
    · simp at h; simp [← h]
    · split at h
      · simp at h; simp [← h]
      · simp at h; simp [← h]

/-- Writing keeps the addresses strictly rising. -/
theorem Memory.write_wf (m : Memory) (a : Nat) (b : Byte) (h : m.wf = true) : (m.write a b).wf = true := by
  induction m with
  | nil => rfl
  | cons c rest ih =>
    obtain ⟨a', b'⟩ := c
    have hr := (Memory.wf_cons _ _).1 h
    simp only [Memory.write]
    split
    · exact (Memory.wf_cons _ _).2 ⟨by simpa, h⟩
    · split
      · rename_i heq
        subst heq
        exact (Memory.wf_cons _ _).2 ⟨hr.1, hr.2⟩
      · refine (Memory.wf_cons _ _).2 ⟨fun c hc => ?_, ih hr.2⟩
        rcases Memory.head_write rest a b c hc with h1 | ⟨c', hc', h1⟩
        · simp only; omega
        · simpa [h1] using hr.1 c' hc'

/-- The memory after reset has the canonical form. -/
theorem reset_msg_wf : State.reset.msg.wf = true := rfl

end Sys2Proof.Machine
end

