-- ==== Sys2Proof/Laws/Padding.lean ====
section
/-! SUPPORT. What reading PMSG answers: one lemma per case of `pmsgByte` (R105), and when a block can be read (R129, R264). -/

namespace Sys2Proof.Machine

open Sys2Proof

theorem zeroCount_lt (len : Nat) : zeroCount len < 64 := Nat.mod_lt _ (by omega)

/-- `L + 1 + z = P - 8` (R105). -/
theorem paddedLength_sub (len : Nat) : paddedLength len - 8 = len + 1 + zeroCount len := by
  simp [paddedLength]

theorem pmsgByte_message {msg : Memory} {len a : Nat} {b : Byte} (h : a < len) (hb : msg.read a = some b) :
    pmsgByte msg len a = .ok b := by
  simp [pmsgByte, h, hb]

theorem pmsgByte_unwritten {msg : Memory} {len a : Nat} (h : a < len) (hb : msg.read a = none) :
    pmsgByte msg len a = .error .unwrittenMessageByte := by
  simp [pmsgByte, h, hb]

theorem pmsgByte_marker (msg : Memory) (len : Nat) : pmsgByte msg len len = .ok 0x80 := by
  simp [pmsgByte]

theorem pmsgByte_zero {msg : Memory} {len a : Nat} (h : len < a) (h' : a < len + 1 + zeroCount len) :
    pmsgByte msg len a = .ok 0x00 := by
  simp [pmsgByte, paddedLength_sub, h', show ¬a < len by omega, show ¬a = len by omega]

theorem pmsgByte_length {msg : Memory} {len a : Nat} (h : len + 1 + zeroCount len ≤ a) (h' : a < paddedLength len) :
    pmsgByte msg len a = .ok (byte64 (bitLength len) (a - (len + 1 + zeroCount len))) := by
  simp [pmsgByte, paddedLength_sub, h', show ¬a < len by omega, show ¬a = len by omega,
    show ¬a < len + 1 + zeroCount len by omega]

theorem pmsgByte_beyond {msg : Memory} {len a : Nat} (h : paddedLength len ≤ a) :
    pmsgByte msg len a = .error .beyondPaddedMessage := by
  have hz : paddedLength len = len + 1 + zeroCount len + 8 := rfl
  simp [pmsgByte, paddedLength_sub, show ¬a < len by omega, show ¬a = len by omega,
    show ¬a < len + 1 + zeroCount len by omega, show ¬a < paddedLength len by omega]

/-- A byte of PMSG below P can be read exactly when it is no message byte or one that was written. -/
theorem pmsgByte_ok_iff {msg : Memory} {len a : Nat} (hP : a < paddedLength len) :
    (∃ b, pmsgByte msg len a = .ok b) ↔ (a < len → (msg.read a).isSome = true) := by
  simp only [pmsgByte, hP, ↓reduceIte]
  split
  · cases msg.read a <;> simp_all
  · repeat' split
    all_goals simp_all

/-- A block read stops at no byte exactly when each of its bytes can be read. -/
theorem pmsgFault_eq_none {msg : Memory} {len : Nat} (a n : Nat) :
    pmsgFault msg len a n = none ↔ ∀ j, j < n → ∃ b, pmsgByte msg len (a + j) = .ok b := by
  induction n generalizing a with
  | zero => simp [pmsgFault]
  | succ n ih =>
    simp only [pmsgFault]
    split
    · rename_i f hf
      simp only [reduceCtorEq, false_iff, not_forall]
      exact ⟨0, by omega, by simp [hf]⟩
    · rename_i b hb
      rw [ih]
      constructor
      · intro h j hj
        cases j with
        | zero => exact ⟨b, hb⟩
        | succ j => simpa [Nat.add_assoc, Nat.add_comm 1] using h j (by omega)
      · intro h j hj
        simpa [Nat.add_assoc, Nat.add_comm 1] using h (j + 1) (by omega)

/-- The fault of a block read is that of its first byte that cannot be read. -/
theorem pmsgFault_eq_some {msg : Memory} {len : Nat} (a n : Nat) (f : Fault) :
    pmsgFault msg len a n = some f ↔
      ∃ j, j < n ∧ pmsgByte msg len (a + j) = .error f ∧ ∀ i, i < j → ∃ b, pmsgByte msg len (a + i) = .ok b := by
  induction n generalizing a with
  | zero => simp [pmsgFault]
  | succ n ih =>
    simp only [pmsgFault]
    split
    · rename_i g hg
      constructor
      · intro h
        cases h
        exact ⟨0, by omega, hg, by omega⟩
      · rintro ⟨j, -, hj, hi⟩
        cases j with
        | zero => simp_all
        | succ j => obtain ⟨b, hb⟩ := hi 0 (by omega); simp_all
    · rename_i b hb
      rw [ih]
      constructor
      · rintro ⟨j, hj, hf, hi⟩
        refine ⟨j + 1, by omega, by simpa [Nat.add_assoc, Nat.add_comm 1] using hf, fun i hlt => ?_⟩
        cases i with
        | zero => exact ⟨b, hb⟩
        | succ i => simpa [Nat.add_assoc, Nat.add_comm 1] using hi i (by omega)
      · rintro ⟨j, hj, hf, hi⟩
        cases j with
        | zero => simp_all
        | succ j =>
          refine ⟨j, by omega, by simpa [Nat.add_assoc, Nat.add_comm 1] using hf, fun i hlt => ?_⟩
          simpa [Nat.add_assoc, Nat.add_comm 1] using hi (i + 1) (by omega)

/-- What a block read answers when every byte can be read. -/
theorem pmsgBlock_ok {msg : Memory} {len b : Nat} (h : ∀ j, j < 64 → ∃ v, pmsgByte msg len (64 * b + j) = .ok v) :
    pmsgBlock msg len b = .ok (Vector.ofFn fun k => pmsgWord msg len (64 * b + 4 * k.val)) := by
  simp [pmsgBlock, (pmsgFault_eq_none _ _).2 h]

/-- A block read answers words only when every byte can be read. -/
theorem pmsgBlock_eq_ok {msg : Memory} {len b : Nat} {block : Vector Word 16} (h : pmsgBlock msg len b = .ok block) :
    (∀ j, j < 64 → ∃ v, pmsgByte msg len (64 * b + j) = .ok v) ∧
      block = Vector.ofFn fun k => pmsgWord msg len (64 * b + 4 * k.val) := by
  unfold pmsgBlock at h
  split at h
  · cases h
  · exact ⟨(pmsgFault_eq_none _ _).1 ‹_›, (Except.ok.inj h).symm⟩

theorem pmsgValue_of_ok {msg : Memory} {len a : Nat} {v : Byte} (h : pmsgByte msg len a = .ok v) :
    pmsgValue msg len a = v := by
  simp [pmsgValue, h]

end Sys2Proof.Machine
end

