-- ==== Sys2Proof/Laws/Exec.lean ====
section
/-! SUPPORT. What each kind of instruction answers, said once: later proofs cite these and do not unfold `exec`. -/

namespace Sys2Proof.Machine

open Sys2Proof

/-- The meaning of each of the 48 steps, transcribed from its own rule, is the generic step with the operands that the
formulas of R126 and R127 compute. -/
theorem exec_stepInstr (r : Fin 3) (n : Fin 16) (s : State) :
    exec (stepInstr r n) s = runStep (mixOf r) (schedule r n) s := by
  fin_cases r <;> fin_cases n <;> rfl

/-- Every micro-operation is HALT, LDBLK, FEED or a step. -/
theorem sequencer_cases (i : Instr) (h : i.agent = .sequencer) :
    i = .halt ∨ i = .ldblk ∨ i = .feed ∨ ∃ r n, i = stepInstr r n := by
  cases i <;> first
    | (cases h; done)
    | (left; rfl)
    | (right; left; rfl)
    | (right; right; left; rfl)
    | skip
  all_goals (refine .inr (.inr (.inr ?_)))
  case ff0 => exact ⟨0, 0, rfl⟩
  case ff1 => exact ⟨0, 1, rfl⟩
  case ff2 => exact ⟨0, 2, rfl⟩
  case ff3 => exact ⟨0, 3, rfl⟩
  case ff4 => exact ⟨0, 4, rfl⟩
  case ff5 => exact ⟨0, 5, rfl⟩
  case ff6 => exact ⟨0, 6, rfl⟩
  case ff7 => exact ⟨0, 7, rfl⟩
  case ff8 => exact ⟨0, 8, rfl⟩
  case ff9 => exact ⟨0, 9, rfl⟩
  case ff10 => exact ⟨0, 10, rfl⟩
  case ff11 => exact ⟨0, 11, rfl⟩
  case ff12 => exact ⟨0, 12, rfl⟩
  case ff13 => exact ⟨0, 13, rfl⟩
  case ff14 => exact ⟨0, 14, rfl⟩
  case ff15 => exact ⟨0, 15, rfl⟩
  case gg0 => exact ⟨1, 0, rfl⟩
  case gg1 => exact ⟨1, 1, rfl⟩
  case gg2 => exact ⟨1, 2, rfl⟩
  case gg3 => exact ⟨1, 3, rfl⟩
  case gg4 => exact ⟨1, 4, rfl⟩
  case gg5 => exact ⟨1, 5, rfl⟩
  case gg6 => exact ⟨1, 6, rfl⟩
  case gg7 => exact ⟨1, 7, rfl⟩
  case gg8 => exact ⟨1, 8, rfl⟩
  case gg9 => exact ⟨1, 9, rfl⟩
  case gg10 => exact ⟨1, 10, rfl⟩
  case gg11 => exact ⟨1, 11, rfl⟩
  case gg12 => exact ⟨1, 12, rfl⟩
  case gg13 => exact ⟨1, 13, rfl⟩
  case gg14 => exact ⟨1, 14, rfl⟩
  case gg15 => exact ⟨1, 15, rfl⟩
  case hh0 => exact ⟨2, 0, rfl⟩
  case hh1 => exact ⟨2, 1, rfl⟩
  case hh2 => exact ⟨2, 2, rfl⟩
  case hh3 => exact ⟨2, 3, rfl⟩
  case hh4 => exact ⟨2, 4, rfl⟩
  case hh5 => exact ⟨2, 5, rfl⟩
  case hh6 => exact ⟨2, 6, rfl⟩
  case hh7 => exact ⟨2, 7, rfl⟩
  case hh8 => exact ⟨2, 8, rfl⟩
  case hh9 => exact ⟨2, 9, rfl⟩
  case hh10 => exact ⟨2, 10, rfl⟩
  case hh11 => exact ⟨2, 11, rfl⟩
  case hh12 => exact ⟨2, 12, rfl⟩
  case hh13 => exact ⟨2, 13, rfl⟩
  case hh14 => exact ⟨2, 14, rfl⟩
  case hh15 => exact ⟨2, 15, rfl⟩

/-- What LDBLK answers. -/
theorem exec_ldblk_next {s t : State} (h : exec .ldblk s = .next t) :
    ∃ block, pmsgBlock s.msg s.mlen s.blk = .ok block ∧ t = ((s.setX block).setW s.h).setSeq 0x80 := by
  simp only [exec, execLdblk] at h
  split at h
  · cases h
  · exact ⟨_, ‹_›, (Host.Outcome.next.inj h).symm⟩

/-- What FEED answers: it never stops. -/
theorem exec_feed (s : State) :
    exec .feed s = .next (
      if s.blk + 1 < numBlocks s.mlen then ((s.setH (addLanes s.h s.w)).setBlk (s.blk + 1)).setSeq 0x40
      else (((s.setH (addLanes s.h s.w)).setBlk (s.blk + 1)).setSeq 0x00).setDone true) := by
  simp only [exec, execFeed]
  split <;> rfl

/-- What a micro-operation can do: everything one that answers a next state has done. -/
theorem exec_sequencer_next {u : Instr} {s t : State} (hu : u.agent = .sequencer) (h : exec u s = .next t) :
    (u = .halt ∧ t = s) ∨
    (u = .ldblk ∧ ∃ block, pmsgBlock s.msg s.mlen s.blk = .ok block ∧
      t = ((s.setX block).setW s.h).setSeq 0x80) ∨
    (u = .feed ∧ s.blk + 1 < numBlocks s.mlen ∧
      t = ((s.setH (addLanes s.h s.w)).setBlk (s.blk + 1)).setSeq 0x40) ∨
    (u = .feed ∧ numBlocks s.mlen ≤ s.blk + 1 ∧
      t = (((s.setH (addLanes s.h s.w)).setBlk (s.blk + 1)).setSeq 0x00).setDone true) ∨
    (∃ r n, u = stepInstr r n ∧
      t = (s.setW (stepWork (mixOf r) (schedule r n) s.w s.x)).setSeq (schedule r n).next) := by
  rcases sequencer_cases u hu with rfl | rfl | rfl | ⟨r, n, rfl⟩
  · exact .inl ⟨rfl, (Host.Outcome.next.inj h).symm⟩
  · exact .inr (.inl ⟨rfl, exec_ldblk_next h⟩)
  · rw [exec_feed] at h
    split at h <;> cases h
    · exact .inr (.inr (.inl ⟨rfl, ‹_›, rfl⟩))
    · exact .inr (.inr (.inr (.inl ⟨rfl, Nat.le_of_not_lt ‹_›, rfl⟩)))
  · rw [exec_stepInstr] at h
    cases h
    exact .inr (.inr (.inr (.inr ⟨r, n, rfl, rfl⟩)))

/-- What a host operation can do (R229): it is held and nothing changes, or it is accepted, leaves the port, and writes
at most what its column "may write" lists. -/
theorem exec_host_next {i : Instr} {s t : State} (hi : i.agent = .host) (h : exec i s = .next t) :
    (accepted i s = false ∧ t = s) ∨
    (accepted i s = true ∧
      ((i = .nop ∧ t = s.accept none) ∨
       (∃ len, i = .wrlen len ∧ t = (s.setMlen len).accept none) ∨
       (∃ a b, i = .wrmsg a b ∧ t = (s.setMsg (s.msg.write a b)).accept none) ∨
       (i = .start ∧ t = ((((s.setH romIV).setBlk 0).setDone false).setSeq 0x40).accept none) ∨
       (i = .rdstat ∧ t = s.accept (some (statusWord s))) ∨
       (∃ j, ∃ hj : j.toNat < 4, i = .rdh j ∧ t = s.accept (some s.h[j.toNat])) ∨
       (∃ j, i = .rddig j ∧ t = s.accept (some ((digByte s.h j.toFin).zeroExtend 32))))) := by
  cases i
  case nop =>
    simp only [exec, execNop] at h
    split at h <;> cases h <;> simp_all
  case wrlen len =>
    simp only [exec, execWrlen] at h
    split at h <;> cases h <;> simp_all
  case wrmsg a b =>
    simp only [exec, execWrmsg, wrmsgWithin] at h
    split at h
    · split at h <;> cases h; simp_all
    · cases h; simp_all
  case start =>
    simp only [exec, execStart, startWithin] at h
    split at h
    · split at h <;> cases h; simp_all
    · cases h; simp_all
  case rdstat =>
    simp only [exec, execRdstat] at h
    split at h <;> cases h <;> simp_all
  case rdh j =>
    simp only [exec, execRdh] at h
    split at h
    · split at h <;> cases h <;> simp_all
    · cases h
  case rddig j =>
    simp only [exec, execRddig] at h
    split at h <;> cases h <;> simp_all
  all_goals cases hi

/-- No instruction of either agent asserts or puts off a reset: it is an input (R260). -/
theorem exec_resets {i : Instr} {s t : State} (h : exec i s = .next t) : t.resets = s.resets := by
  cases hi : i.agent
  · rcases exec_sequencer_next hi h with ⟨rfl, rfl⟩ | ⟨rfl, block, -, rfl⟩ | ⟨rfl, -, rfl⟩ | ⟨rfl, -, rfl⟩ |
      ⟨r, n, rfl, rfl⟩ <;> rfl
  · rcases exec_host_next hi h with ⟨-, rfl⟩ | ⟨-, ⟨rfl, rfl⟩ | ⟨l, rfl, rfl⟩ | ⟨a, b, rfl, rfl⟩ | ⟨rfl, rfl⟩ |
      ⟨rfl, rfl⟩ | ⟨j, hj, rfl, rfl⟩ | ⟨j, rfl, rfl⟩⟩ <;> rfl

/-- A host operation never faults (R240). -/
theorem exec_host_no_fault {i : Instr} {s : State} (hi : i.agent = .host) (f : Fault) : exec i s ≠ .fault f := by
  cases i
  case nop => simp only [exec, execNop]; split <;> simp [hold]
  case wrlen len => simp only [exec, execWrlen]; split <;> simp [hold]
  case wrmsg a b => simp only [exec, execWrmsg, wrmsgWithin]; repeat' split
                    all_goals simp [hold]
  case start => simp only [exec, execStart, startWithin]; repeat' split
                all_goals simp [hold]
  case rdstat => simp only [exec, execRdstat]; split <;> simp [hold]
  case rdh j => simp only [exec, execRdh]; repeat' split
                all_goals simp [hold]
  case rddig j => simp only [exec, execRddig]; split <;> simp [hold]
  all_goals cases hi

/-- An operation that is accepted is the host's (R229). -/
theorem agent_of_accepted {i : Instr} {s : State} (h : accepted i s = true) : i.agent = .host := by
  cases i <;> first | rfl | cases h

end Sys2Proof.Machine
end

