-- ==== Sys2Proof/Laws/PerInstr.lean ====
section
/-! SUPPORT. Statements about every instruction as syntax, one lemma a constructor. -/

/-- The code of an instruction stands where its own agent reads codes: a micro-operation's in SEQ (R82), a host
operation's at the host port (R85). -/
def Sys2Proof.Laws.EncodesOnItsPort.Statement (i : Sys2Proof.Instr) : Prop :=
  (Sys2Proof.encode i).agent = i.agent

theorem Sys2Proof.Laws.EncodesOnItsPort.halt : Sys2Proof.Laws.EncodesOnItsPort.Statement .halt := rfl
theorem Sys2Proof.Laws.EncodesOnItsPort.ldblk : Sys2Proof.Laws.EncodesOnItsPort.Statement .ldblk := rfl
theorem Sys2Proof.Laws.EncodesOnItsPort.ff0 : Sys2Proof.Laws.EncodesOnItsPort.Statement .ff0 := rfl
theorem Sys2Proof.Laws.EncodesOnItsPort.ff1 : Sys2Proof.Laws.EncodesOnItsPort.Statement .ff1 := rfl
theorem Sys2Proof.Laws.EncodesOnItsPort.ff2 : Sys2Proof.Laws.EncodesOnItsPort.Statement .ff2 := rfl
theorem Sys2Proof.Laws.EncodesOnItsPort.ff3 : Sys2Proof.Laws.EncodesOnItsPort.Statement .ff3 := rfl
theorem Sys2Proof.Laws.EncodesOnItsPort.ff4 : Sys2Proof.Laws.EncodesOnItsPort.Statement .ff4 := rfl
theorem Sys2Proof.Laws.EncodesOnItsPort.ff5 : Sys2Proof.Laws.EncodesOnItsPort.Statement .ff5 := rfl
theorem Sys2Proof.Laws.EncodesOnItsPort.ff6 : Sys2Proof.Laws.EncodesOnItsPort.Statement .ff6 := rfl
theorem Sys2Proof.Laws.EncodesOnItsPort.ff7 : Sys2Proof.Laws.EncodesOnItsPort.Statement .ff7 := rfl
theorem Sys2Proof.Laws.EncodesOnItsPort.ff8 : Sys2Proof.Laws.EncodesOnItsPort.Statement .ff8 := rfl
theorem Sys2Proof.Laws.EncodesOnItsPort.ff9 : Sys2Proof.Laws.EncodesOnItsPort.Statement .ff9 := rfl
theorem Sys2Proof.Laws.EncodesOnItsPort.ff10 : Sys2Proof.Laws.EncodesOnItsPort.Statement .ff10 := rfl
theorem Sys2Proof.Laws.EncodesOnItsPort.ff11 : Sys2Proof.Laws.EncodesOnItsPort.Statement .ff11 := rfl
theorem Sys2Proof.Laws.EncodesOnItsPort.ff12 : Sys2Proof.Laws.EncodesOnItsPort.Statement .ff12 := rfl
theorem Sys2Proof.Laws.EncodesOnItsPort.ff13 : Sys2Proof.Laws.EncodesOnItsPort.Statement .ff13 := rfl
theorem Sys2Proof.Laws.EncodesOnItsPort.ff14 : Sys2Proof.Laws.EncodesOnItsPort.Statement .ff14 := rfl
theorem Sys2Proof.Laws.EncodesOnItsPort.ff15 : Sys2Proof.Laws.EncodesOnItsPort.Statement .ff15 := rfl
theorem Sys2Proof.Laws.EncodesOnItsPort.gg0 : Sys2Proof.Laws.EncodesOnItsPort.Statement .gg0 := rfl
theorem Sys2Proof.Laws.EncodesOnItsPort.gg1 : Sys2Proof.Laws.EncodesOnItsPort.Statement .gg1 := rfl
theorem Sys2Proof.Laws.EncodesOnItsPort.gg2 : Sys2Proof.Laws.EncodesOnItsPort.Statement .gg2 := rfl
theorem Sys2Proof.Laws.EncodesOnItsPort.gg3 : Sys2Proof.Laws.EncodesOnItsPort.Statement .gg3 := rfl
theorem Sys2Proof.Laws.EncodesOnItsPort.gg4 : Sys2Proof.Laws.EncodesOnItsPort.Statement .gg4 := rfl
theorem Sys2Proof.Laws.EncodesOnItsPort.gg5 : Sys2Proof.Laws.EncodesOnItsPort.Statement .gg5 := rfl
theorem Sys2Proof.Laws.EncodesOnItsPort.gg6 : Sys2Proof.Laws.EncodesOnItsPort.Statement .gg6 := rfl
theorem Sys2Proof.Laws.EncodesOnItsPort.gg7 : Sys2Proof.Laws.EncodesOnItsPort.Statement .gg7 := rfl
theorem Sys2Proof.Laws.EncodesOnItsPort.gg8 : Sys2Proof.Laws.EncodesOnItsPort.Statement .gg8 := rfl
theorem Sys2Proof.Laws.EncodesOnItsPort.gg9 : Sys2Proof.Laws.EncodesOnItsPort.Statement .gg9 := rfl
theorem Sys2Proof.Laws.EncodesOnItsPort.gg10 : Sys2Proof.Laws.EncodesOnItsPort.Statement .gg10 := rfl
theorem Sys2Proof.Laws.EncodesOnItsPort.gg11 : Sys2Proof.Laws.EncodesOnItsPort.Statement .gg11 := rfl
theorem Sys2Proof.Laws.EncodesOnItsPort.gg12 : Sys2Proof.Laws.EncodesOnItsPort.Statement .gg12 := rfl
theorem Sys2Proof.Laws.EncodesOnItsPort.gg13 : Sys2Proof.Laws.EncodesOnItsPort.Statement .gg13 := rfl
theorem Sys2Proof.Laws.EncodesOnItsPort.gg14 : Sys2Proof.Laws.EncodesOnItsPort.Statement .gg14 := rfl
theorem Sys2Proof.Laws.EncodesOnItsPort.gg15 : Sys2Proof.Laws.EncodesOnItsPort.Statement .gg15 := rfl
theorem Sys2Proof.Laws.EncodesOnItsPort.hh0 : Sys2Proof.Laws.EncodesOnItsPort.Statement .hh0 := rfl
theorem Sys2Proof.Laws.EncodesOnItsPort.hh1 : Sys2Proof.Laws.EncodesOnItsPort.Statement .hh1 := rfl
theorem Sys2Proof.Laws.EncodesOnItsPort.hh2 : Sys2Proof.Laws.EncodesOnItsPort.Statement .hh2 := rfl
theorem Sys2Proof.Laws.EncodesOnItsPort.hh3 : Sys2Proof.Laws.EncodesOnItsPort.Statement .hh3 := rfl
theorem Sys2Proof.Laws.EncodesOnItsPort.hh4 : Sys2Proof.Laws.EncodesOnItsPort.Statement .hh4 := rfl
theorem Sys2Proof.Laws.EncodesOnItsPort.hh5 : Sys2Proof.Laws.EncodesOnItsPort.Statement .hh5 := rfl
theorem Sys2Proof.Laws.EncodesOnItsPort.hh6 : Sys2Proof.Laws.EncodesOnItsPort.Statement .hh6 := rfl
theorem Sys2Proof.Laws.EncodesOnItsPort.hh7 : Sys2Proof.Laws.EncodesOnItsPort.Statement .hh7 := rfl
theorem Sys2Proof.Laws.EncodesOnItsPort.hh8 : Sys2Proof.Laws.EncodesOnItsPort.Statement .hh8 := rfl
theorem Sys2Proof.Laws.EncodesOnItsPort.hh9 : Sys2Proof.Laws.EncodesOnItsPort.Statement .hh9 := rfl
theorem Sys2Proof.Laws.EncodesOnItsPort.hh10 : Sys2Proof.Laws.EncodesOnItsPort.Statement .hh10 := rfl
theorem Sys2Proof.Laws.EncodesOnItsPort.hh11 : Sys2Proof.Laws.EncodesOnItsPort.Statement .hh11 := rfl
theorem Sys2Proof.Laws.EncodesOnItsPort.hh12 : Sys2Proof.Laws.EncodesOnItsPort.Statement .hh12 := rfl
theorem Sys2Proof.Laws.EncodesOnItsPort.hh13 : Sys2Proof.Laws.EncodesOnItsPort.Statement .hh13 := rfl
theorem Sys2Proof.Laws.EncodesOnItsPort.hh14 : Sys2Proof.Laws.EncodesOnItsPort.Statement .hh14 := rfl
theorem Sys2Proof.Laws.EncodesOnItsPort.hh15 : Sys2Proof.Laws.EncodesOnItsPort.Statement .hh15 := rfl
theorem Sys2Proof.Laws.EncodesOnItsPort.feed : Sys2Proof.Laws.EncodesOnItsPort.Statement .feed := rfl
theorem Sys2Proof.Laws.EncodesOnItsPort.nop : Sys2Proof.Laws.EncodesOnItsPort.Statement .nop := rfl
theorem Sys2Proof.Laws.EncodesOnItsPort.wrlen (len : Nat) : Sys2Proof.Laws.EncodesOnItsPort.Statement (.wrlen len) := rfl
theorem Sys2Proof.Laws.EncodesOnItsPort.wrmsg (addr : Nat) (byte : Byte) : Sys2Proof.Laws.EncodesOnItsPort.Statement (.wrmsg addr byte) := rfl
theorem Sys2Proof.Laws.EncodesOnItsPort.start : Sys2Proof.Laws.EncodesOnItsPort.Statement .start := rfl
theorem Sys2Proof.Laws.EncodesOnItsPort.rdstat : Sys2Proof.Laws.EncodesOnItsPort.Statement .rdstat := rfl
theorem Sys2Proof.Laws.EncodesOnItsPort.rdh (idx : BitVec 4) : Sys2Proof.Laws.EncodesOnItsPort.Statement (.rdh idx) := rfl
theorem Sys2Proof.Laws.EncodesOnItsPort.rddig (idx : BitVec 4) : Sys2Proof.Laws.EncodesOnItsPort.Statement (.rddig idx) := rfl
end

