-- ==== Sys2Proof/Laws/Step.lean ====
section
/-! SUPPORT. What one step of the machine can do, said once: the reset input, or one instruction of one of the agents, and then
the next instant. -/

namespace Sys2Proof.Machine

open Sys2Proof

/-- A decoded SEQ is a micro-operation. -/
theorem agent_of_decodeSeq {b : BitVec 8} {u : Instr} (h : decodeSeq b = .instr u) : u.agent = .sequencer := by
  have key : ∀ (r : Fin 3) (n : Fin 16), (stepInstr r n).agent = .sequencer := by
    intro r n; fin_cases r <;> fin_cases n <;> rfl
  unfold decodeSeq at h
  repeat' split at h
  all_goals cases h
  all_goals first | rfl | exact key _ _

/-- What is fetched at an instant: the reset, the micro-operation SEQ selects, or the pending operation, and then only if
the state accepts it and either SEQ is `0x00` or the host goes first. -/
theorem fetch_run {s : State} {i : Instr} (h : fetch s = .run i) :
    s.resetPin = false ∧ ∃ u, decodeSeq s.seq = .instr u ∧
      (i = u ∨ ∃ w rest, s.port = w :: rest ∧ decodeHost w = .instr i ∧ accepted i s = true ∧
        (s.seq = 0x00 ∨ s.hostFirst = true)) := by
  unfold fetch at h
  split at h
  · cases h
  · refine ⟨by simpa using ‹¬s.resetPin = true›, ?_⟩
    split at h
    · cases h
    · rename_i u hu
      refine ⟨u, hu, ?_⟩
      split at h
      · cases h; exact .inl rfl
      · rename_i w rest hp
        split at h
        · cases h
        · rename_i i' hi'
          split at h
          · rename_i hm
            cases h
            simp [hostMoves] at hm
            exact .inr ⟨w, rest, hp, hi', hm.1, hm.2⟩
          · cases h; exact .inl rfl

/-- The reset input is taken at once, whatever else stands (R270). -/
theorem step_of_reset {s : State} (h : s.resetPin = true) : step s = .next s.takeReset.drawOrder := by
  simp [step, fetch, h]

/-- A step is the instruction fetched, and then the next instant. -/
theorem step_of_run {s : State} {i : Instr} (h : fetch s = .run i) : step s = atNextInstant (exec i s) := by
  simp [step, h]

theorem atNextInstant_next {r : Result} {t : State} (h : atNextInstant r = .next t) :
    ∃ u, r = .next u ∧ t = u.nextInstant := by
  cases r with
  | next u => exact ⟨u, rfl, (Host.Outcome.next.inj h).symm⟩
  | fault f => cases h
  | refused f => cases h

/-- Everything a step that answers a next state can have done. -/
theorem step_next {s t : State} (h : step s = .next t) :
    (s.resetPin = true ∧ t = s.takeReset.drawOrder) ∨
    (s.resetPin = false ∧ ∃ i u, fetch s = .run i ∧ exec i s = .next u ∧ t = u.nextInstant) := by
  unfold step at h
  split at h
  · rename_i hf
    refine .inl ⟨?_, (Host.Outcome.next.inj h).symm⟩
    unfold fetch at hf
    split at hf
    · assumption
    · repeat' split at hf
      all_goals cases hf
  · rename_i i hf
    obtain ⟨u, hu, rfl⟩ := atNextInstant_next h
    exact .inr ⟨(fetch_run hf).1, i, u, hf, hu, rfl⟩
  · cases h

/-- The first of `k + 1` steps, taken off the front of a run. -/
theorem core_run_succ (k : Nat) (s : State) :
    (Host.Core.run Sys2Proof.core (k + 1) s : Result) =
      match step s with
      | .next t => Host.Core.run Sys2Proof.core k t
      | .fault f => .fault f
      | .refused r => .refused r := by
  have core_step : Sys2Proof.core.step s = step s := rfl
  simp only [Host.Core.run]
  rw [core_step]
  cases step s <;> rfl

end Sys2Proof.Machine
end

