-- ==== Sys2Proof/Tests/Slice0.lean ====
section
/-! SUPPORT. The model's own tests. Every expected value is the spec's: a rule's example or a row of 95_test_vectors.md, named
at the test. Then one witness a statement of Certificates/Slice0/Obligations.lean that has hypotheses. -/

namespace Sys2Proof.Tests

open Sys2Proof Sys2Proof.Machine

/-! ## Helpers -/

/-- What an instruction answers, looked at by `p`; false if it stops. -/
def answers (r : Result) (p : State → Bool) : Bool :=
  match r with
  | .next t => p t
  | .fault _ => false
  | .refused _ => false

/-- Whether a result is this fault. -/
def faults (r : Result) (f : Fault) : Bool :=
  match r with
  | .next _ => false
  | .fault g => decide (g = f)
  | .refused _ => false

/-- Whether a result is this refusal. -/
def refuses (r : Result) (f : Refusal) : Bool :=
  match r with
  | .next _ => false
  | .fault _ => false
  | .refused g => decide (g = f)

/-- The digest of the empty message (95 section 2.3, S1). -/
def emptyDigest : Vector Word 4 := #v[0xE0CFD631, 0x31E96AD1, 0xD7593CB7, 0xC089C0E0]

/-- "done (empty message)" of 95 section 2.9. -/
def doneState : State := { State.reset with done := true, h := emptyDigest, blk := 1 }

/-- A state in phase LOAD on the empty message, as START leaves it. -/
def loadState : State := { State.reset with seq := 0x40, h := romIV }

/-- The one-byte message `a`, written, in phase HALT. -/
def oneByte : State := { State.reset with mlen := 1, msg := [(0, 0x61)] }

/-- The same, its only block in phase LOAD with BLK at its largest. -/
def oneByteLoad : State := { oneByte with seq := 0x40, h := romIV }

/-- One step run on the registers before it (the trace T1 example of its rule): the destination and SEQ it leaves. -/
def stepRow (i : Instr) (w : Vector Word 4) (k : Fin 16) (word : Word) (dest : Fin 4) (after : Word) (next : BitVec 8) :
    Bool :=
  answers (exec i { State.reset with w := w, x := (Vector.replicate 16 0).set k word })
    fun t => decide (t.w = w.set dest after) && decide (t.seq = next)

/-! ## Well-formedness: each check refuses an ill-formed term -/

theorem test_wellFormed_rdh_largest : (Instr.rdh 3).wellFormed = true := by decide
theorem test_illFormed_rdh_four : (Instr.rdh 4).wellFormed = false := by decide
theorem test_illFormed_rdh_fifteen : (Instr.rdh 15).wellFormed = false := by decide
theorem test_wellFormed_rddig_fifteen : (Instr.rddig 15).wellFormed = true := by decide

/-! ## Decoding: words written out from R82, R83 and R85 -/

theorem test_decode_halt : decode (.seq 0b00000000) = .instr .halt := by decide
theorem test_decode_ldblk : decode (.seq 0b01000000) = .instr .ldblk := by decide
theorem test_decode_feed : decode (.seq 0b11000000) = .instr .feed := by decide

/-- R82, R83: the sixteen words of round 1. -/
theorem test_decode_round1 :
    ([0b10000000, 0b10000001, 0b10000010, 0b10000011, 0b10000100, 0b10000101, 0b10000110, 0b10000111,
      0b10001000, 0b10001001, 0b10001010, 0b10001011, 0b10001100, 0b10001101, 0b10001110, 0b10001111] : List (BitVec 8)).map (fun b => (decode (.seq b)).toOption) =
      ([.ff0, .ff1, .ff2, .ff3, .ff4, .ff5, .ff6, .ff7, .ff8, .ff9, .ff10, .ff11, .ff12, .ff13, .ff14, .ff15] : List Instr).map some := by
  decide

/-- R82, R83: the sixteen words of round 2. -/
theorem test_decode_round2 :
    ([0b10010000, 0b10010001, 0b10010010, 0b10010011, 0b10010100, 0b10010101, 0b10010110, 0b10010111,
      0b10011000, 0b10011001, 0b10011010, 0b10011011, 0b10011100, 0b10011101, 0b10011110, 0b10011111] : List (BitVec 8)).map (fun b => (decode (.seq b)).toOption) =
      ([.gg0, .gg1, .gg2, .gg3, .gg4, .gg5, .gg6, .gg7, .gg8, .gg9, .gg10, .gg11, .gg12, .gg13, .gg14, .gg15] : List Instr).map some := by
  decide

/-- R82, R83: the sixteen words of round 3. -/
theorem test_decode_round3 :
    ([0b10100000, 0b10100001, 0b10100010, 0b10100011, 0b10100100, 0b10100101, 0b10100110, 0b10100111,
      0b10101000, 0b10101001, 0b10101010, 0b10101011, 0b10101100, 0b10101101, 0b10101110, 0b10101111] : List (BitVec 8)).map (fun b => (decode (.seq b)).toOption) =
      ([.hh0, .hh1, .hh2, .hh3, .hh4, .hh5, .hh6, .hh7, .hh8, .hh9, .hh10, .hh11, .hh12, .hh13, .hh14, .hh15] : List Instr).map some := by
  decide

/-- R85: one word an operation, its operand ports as R84 lays them out. -/
theorem test_decode_host :
    ([{ hop := 0b000, hlen := 0, haddr := 0, hbyte := 0, hidx := 0 },
      { hop := 0b001, hlen := 11, haddr := 0, hbyte := 0, hidx := 0 },
      { hop := 0b010, hlen := 0, haddr := 7, hbyte := 0xFF, hidx := 0 },
      { hop := 0b011, hlen := 0, haddr := 0, hbyte := 0, hidx := 0 },
      { hop := 0b100, hlen := 0, haddr := 0, hbyte := 0, hidx := 0 },
      { hop := 0b101, hlen := 0, haddr := 0, hbyte := 0, hidx := 3 },
      { hop := 0b110, hlen := 0, haddr := 0, hbyte := 0, hidx := 15 }] : List HostWord).map
        (fun w => (decode (.host w)).toOption) =
      ([.nop, .wrlen 11, .wrmsg 7 0xFF, .start, .rdstat, .rdh 3, .rddig 15] : List Instr).map some := by
  decide

/-- R84: "A port that an operation does not use is ignored by it." -/
theorem test_decode_ignores_unused_ports :
    decode (.host { hop := 0b011, hlen := 9, haddr := 8, hbyte := 7, hidx := 6 }) = .instr .start := by
  decide

/-- R86: the ends of each reserved range of SEQ. -/
theorem test_decode_reserved_seq :
    ([0x01, 0x3F, 0x41, 0x7F, 0xB0, 0xBF, 0xC1, 0xFF] : List (BitVec 8)).map (fun b => decode (.seq b)) =
      List.replicate 8 (.reserved .seq) := by
  decide
theorem test_decode_reserved_hop : decode (.host (hostCode 0b111)) = .reserved .hop := by decide
theorem test_decode_reserved_hidx : decode (.host { hostCode 0b101 with hidx := 4 }) = .reserved .hidx := by decide

/-! ## The table's numbering, and an instruction placed to run next -/

/-- Rows of spec/opcode_table.json: a micro-operation, a host operation in its 3 bits and in a whole byte. -/
theorem test_decodeTableWord :
    decodeTableWord 8 0x00 = some .halt ∧ decodeTableWord 8 0x40 = some .ldblk ∧ decodeTableWord 8 0xAF = some .hh15 ∧
      decodeTableWord 3 0 = some .nop ∧ decodeTableWord 3 7 = none ∧ decodeTableWord 8 3 = some .start ∧
      decodeTableWord 8 5 = some (.rdh 0) ∧ decodeTableWord 8 0xFF = none := by
  decide

/-- Whatever SEQ value has a meaning, placed after reset, is the very next instruction. -/
theorem test_withFetchWord_seq :
    (List.range 256).all (fun w =>
      match (decodeSeq (BitVec.ofNat 8 w)).toOption with
      | some i => decide (fetch (State.reset.withFetchWord 8 w) = .run i)
      | none => true) = true := by
  decide +kernel
theorem test_withFetchWord_host :
    (List.range 7).all (fun w =>
      match decodeTableWord 3 w with
      | some i => decide (fetch (State.reset.withFetchWord 3 w) = .run i)
      | none => false) = true := by
  decide +kernel

/-! ## Arithmetic (95 section 2.1) -/

theorem test_add32 :
    add32 0xFFFFFFFF 0x00000001 = 0x00000000 ∧ add32 0x80000000 0x80000000 = 0x00000000 ∧
      add32 0x67452301 0xEFCDAB89 = 0x5712CE8A ∧ add32 0xFFFFFFFF 0xFFFFFFFF = 0xFFFFFFFE := by
  decide
theorem test_rotl32_ends :
    rotl32 0x80000000 1 = 0x00000001 ∧ rotl32 0x00000001 31 = 0x80000000 ∧ rotl32 0xFFFFFFFF 7 = 0xFFFFFFFF ∧
      rotl32 0x80000001 3 = 0x0000000C ∧ rotl32 0x80000001 19 = 0x000C0000 := by
  decide
theorem test_rotl32_counts :
    ([3, 5, 7, 9, 11, 13, 15, 19] : List Nat).map (rotl32 0x12345678) =
      [0x91A2B3C0, 0x468ACF02, 0x1A2B3C09, 0x68ACF024, 0xA2B3C091, 0x8ACF0246, 0x2B3C091A, 0xB3C091A2] := by
  decide
theorem test_mixing :
    mixF 0xF0F0F0F0 0xCCCCCCCC 0xAAAAAAAA = 0xCACACACA ∧ mixF 0xCCCCCCCC 0xF0F0F0F0 0xAAAAAAAA = 0xE2E2E2E2 ∧
      mixG 0xF0F0F0F0 0xCCCCCCCC 0xAAAAAAAA = 0xE8E8E8E8 ∧ mixH 0xF0F0F0F0 0xCCCCCCCC 0xAAAAAAAA = 0x96969696 ∧
      not32 0xEFCDAB89 = 0x10325476 := by
  decide
theorem test_byte_order :
    le32 0x48 0x65 0x6C 0x6C = 0x6C6C6548 ∧ byte32 0xE0CFD631 1 = 0xD6 ∧ byte32 0xE0CFD631 3 = 0xE0 ∧
      byte64 0xFFFFFFFFFFFFFFF8 7 = 0xFF := by
  decide

/-! ## Padding (95 section 2.2, R101 to R105, R112) -/

theorem test_zeroCount :
    ([0, 54, 55, 56, 63, 64, 119, 120] : List Nat).map zeroCount = [55, 1, 0, 63, 56, 55, 0, 63] := by decide
theorem test_numBlocks :
    ([0, 55, 56, 119, 120, 183, 184, 1000, 2 ^ 20] : List Nat).map numBlocks = [1, 1, 2, 2, 3, 3, 4, 16, 16385] := by
  decide
theorem test_length_wraps :
    len64 (2 ^ 61 - 1) = [0xF8, 0xFF, 0xFF, 0xFF, 0xFF, 0xFF, 0xFF, 0xFF] ∧
      len64 (2 ^ 61 + 11) = [0x58, 0, 0, 0, 0, 0, 0, 0] ∧ zeroCount (2 ^ 61 + 1) = 54 := by
  decide
/-- `PadByte` of the 56-byte pattern message: the spot checks of section 2.2. -/
theorem test_padByte :
    let msg : Memory := (List.range 56).map fun a => (a, BitVec.ofNat 8 a)
    ([0, 55, 56, 57, 119, 120, 121, 127] : List Nat).map (fun a => (pmsgByte msg 56 a).toOption) =
        [some 0x00, some 0x37, some 0x80, some 0x00, some 0x00, some 0xC0, some 0x01, some 0x00] ∧
      (pmsgByte msg 56 128).toOption = none := by
  decide

/-! ## The steps: the trace T1 example of each rule -/

/-- R150 to R157. -/
theorem test_round1_steps_0_to_7 :
    stepRow .ff0 #v[0x67452301, 0xEFCDAB89, 0x98BADCFE, 0x10325476] 0 0x03020100 0 0x181007F8 0x81 = true ∧
    stepRow .ff1 #v[0x181007F8, 0xEFCDAB89, 0x98BADCFE, 0x10325476] 1 0x07060504 3 0xF19A844F 0x82 = true ∧
    stepRow .ff2 #v[0x181007F8, 0xEFCDAB89, 0x98BADCFE, 0xF19A844F] 2 0x0B0A0908 2 0xD0AE7610 0x83 = true ∧
    stepRow .ff3 #v[0x181007F8, 0xEFCDAB89, 0xD0AE7610, 0xF19A844F] 3 0x0F0E0D0C 1 0xF3EEBBAD 0x84 = true ∧
    stepRow .ff4 #v[0x181007F8, 0xF3EEBBAD, 0xD0AE7610, 0xF19A844F] 4 0x13121110 0 0xDF027A57 0x85 = true ∧
    stepRow .ff5 #v[0xDF027A57, 0xF3EEBBAD, 0xD0AE7610, 0xF19A844F] 5 0x17161514 3 0x2F6BB46E 0x86 = true ∧
    stepRow .ff6 #v[0xDF027A57, 0xF3EEBBAD, 0xD0AE7610, 0x2F6BB46E] 6 0x1B1A1918 2 0x76577E5A 0x87 = true ∧
    stepRow .ff7 #v[0xDF027A57, 0xF3EEBBAD, 0x76577E5A, 0x2F6BB46E] 7 0x1F1E1D1C 1 0x68C61280 0x88 = true := by
  decide

/-- R158 to R165. -/
theorem test_round1_steps_8_to_15 :
    stepRow .ff8 #v[0xDF027A57, 0x68C61280, 0x76577E5A, 0x2F6BB46E] 8 0x23222120 0 0x4CA28F2B 0x89 = true ∧
    stepRow .ff9 #v[0x4CA28F2B, 0x68C61280, 0x76577E5A, 0x2F6BB46E] 9 0x27262524 3 0xB4A5F168 0x8A = true ∧
    stepRow .ff10 #v[0x4CA28F2B, 0x68C61280, 0x76577E5A, 0xB4A5F168] 10 0x2B2A2928 2 0x21595773 0x8B = true ∧
    stepRow .ff11 #v[0x4CA28F2B, 0x68C61280, 0x21595773, 0xB4A5F168] 11 0x2F2E2D2C 1 0xC8A024C0 0x8C = true ∧
    stepRow .ff12 #v[0x4CA28F2B, 0xC8A024C0, 0x21595773, 0xB4A5F168] 12 0x33323130 0 0x9ED4AE1D 0x8D = true ∧
    stepRow .ff13 #v[0x9ED4AE1D, 0xC8A024C0, 0x21595773, 0xB4A5F168] 13 0x37363534 3 0xB2CDFF4A 0x8E = true ∧
    stepRow .ff14 #v[0x9ED4AE1D, 0xC8A024C0, 0x21595773, 0xB2CDFF4A] 14 0x3B3A3938 2 0xC1F999BB 0x8F = true ∧
    stepRow .ff15 #v[0x9ED4AE1D, 0xC8A024C0, 0xC1F999BB, 0xB2CDFF4A] 15 0x3F3E3D3C 1 0x08553561 0x90 = true := by
  decide

/-- R170 to R177. -/
theorem test_round2_steps_0_to_7 :
    stepRow .gg0 #v[0x9ED4AE1D, 0x08553561, 0xC1F999BB, 0xB2CDFF4A] 0 0x03020100 0 0xE9B7310B 0x91 = true ∧
    stepRow .gg1 #v[0xE9B7310B, 0x08553561, 0xC1F999BB, 0xB2CDFF4A] 4 0x13121110 3 0x4AF763DD 0x92 = true ∧
    stepRow .gg2 #v[0xE9B7310B, 0x08553561, 0xC1F999BB, 0x4AF763DD] 8 0x23222120 2 0x2ACB7B11 0x93 = true ∧
    stepRow .gg3 #v[0xE9B7310B, 0x08553561, 0x2ACB7B11, 0x4AF763DD] 12 0x33323130 1 0x2A686020 0x94 = true ∧
    stepRow .gg4 #v[0xE9B7310B, 0x2A686020, 0x2ACB7B11, 0x4AF763DD] 1 0x07060504 0 0xB15895CB 0x95 = true ∧
    stepRow .gg5 #v[0xB15895CB, 0x2A686020, 0x2ACB7B11, 0x4AF763DD] 5 0x17161514 3 0xDB0C717C 0x96 = true ∧
    stepRow .gg6 #v[0xB15895CB, 0x2A686020, 0x2ACB7B11, 0xDB0C717C] 9 0x27262524 2 0x79166CCF 0x97 = true ∧
    stepRow .gg7 #v[0xB15895CB, 0x2A686020, 0x79166CCF, 0xDB0C717C] 13 0x37363534 1 0xB09796A7 0x98 = true := by
  decide

/-- R178 to R185. -/
theorem test_round2_steps_8_to_15 :
    stepRow .gg8 #v[0xB15895CB, 0xB09796A7, 0x79166CCF, 0xDB0C717C] 2 0x0B0A0908 0 0x7FDC6AD8 0x99 = true ∧
    stepRow .gg9 #v[0x7FDC6AD8, 0xB09796A7, 0x79166CCF, 0xDB0C717C] 6 0x1B1A1918 3 0x47EE5F99 0x9A = true ∧
    stepRow .gg10 #v[0x7FDC6AD8, 0xB09796A7, 0x79166CCF, 0x47EE5F99] 10 0x2B2A2928 2 0x42DC52ED 0x9B = true ∧
    stepRow .gg11 #v[0x7FDC6AD8, 0xB09796A7, 0x42DC52ED, 0x47EE5F99] 14 0x3B3A3938 1 0x148A31C6 0x9C = true ∧
    stepRow .gg12 #v[0x7FDC6AD8, 0x148A31C6, 0x42DC52ED, 0x47EE5F99] 3 0x0F0E0D0C 0 0x81DA2A51 0x9D = true ∧
    stepRow .gg13 #v[0x81DA2A51, 0x148A31C6, 0x42DC52ED, 0x47EE5F99] 7 0x1F1E1D1C 3 0x4D252278 0x9E = true ∧
    stepRow .gg14 #v[0x81DA2A51, 0x148A31C6, 0x42DC52ED, 0x4D252278] 11 0x2F2E2D2C 2 0x2E3805A4 0x9F = true ∧
    stepRow .gg15 #v[0x81DA2A51, 0x148A31C6, 0x2E3805A4, 0x4D252278] 15 0x3F3E3D3C 1 0x61617770 0xA0 = true := by
  decide

/-- R190 to R197. -/
theorem test_round3_steps_0_to_7 :
    stepRow .hh0 #v[0x81DA2A51, 0x61617770, 0x2E3805A4, 0x4D252278] 0 0x03020100 0 0xB1933CF7 0xA1 = true ∧
    stepRow .hh1 #v[0xB1933CF7, 0x61617770, 0x2E3805A4, 0x4D252278] 8 0x23222120 3 0xD6FAB9BB 0xA2 = true ∧
    stepRow .hh2 #v[0xB1933CF7, 0x61617770, 0x2E3805A4, 0xD6FAB9BB] 4 0x13121110 2 0x67A48DB1 0xA3 = true ∧
    stepRow .hh3 #v[0xB1933CF7, 0x61617770, 0x67A48DB1, 0xD6FAB9BB] 12 0x33323130 1 0x4E9F021D 0xA4 = true ∧
    stepRow .hh4 #v[0xB1933CF7, 0x4E9F021D, 0x67A48DB1, 0xD6FAB9BB] 2 0x0B0A0908 0 0x59C33DB9 0xA5 = true ∧
    stepRow .hh5 #v[0x59C33DB9, 0x4E9F021D, 0x67A48DB1, 0xD6FAB9BB] 10 0x2B2A2928 3 0xEF0133C3 0xA6 = true ∧
    stepRow .hh6 #v[0x59C33DB9, 0x4E9F021D, 0x67A48DB1, 0xEF0133C3] 6 0x1B1A1918 2 0xACF68F4F 0xA7 = true ∧
    stepRow .hh7 #v[0x59C33DB9, 0x4E9F021D, 0xACF68F4F, 0xEF0133C3] 14 0x3B3A3938 1 0xD4158973 0xA8 = true := by
  decide

/-- R198 to R205. -/
theorem test_round3_steps_8_to_15 :
    stepRow .hh8 #v[0x59C33DB9, 0xD4158973, 0xACF68F4F, 0xEF0133C3] 1 0x07060504 0 0x3C2B22EB 0xA9 = true ∧
    stepRow .hh9 #v[0x3C2B22EB, 0xD4158973, 0xACF68F4F, 0xEF0133C3] 9 0x27262524 3 0x92D2BF93 0xAA = true ∧
    stepRow .hh10 #v[0x3C2B22EB, 0xD4158973, 0xACF68F4F, 0x92D2BF93] 5 0x17161514 2 0x95207D6E 0xAB = true ∧
    stepRow .hh11 #v[0x3C2B22EB, 0xD4158973, 0x95207D6E, 0x92D2BF93] 13 0x37363534 1 0xC52F5AFF 0xAC = true ∧
    stepRow .hh12 #v[0x3C2B22EB, 0xC52F5AFF, 0x95207D6E, 0x92D2BF93] 3 0x0F0E0D0C 0 0xE7859CD3 0xAD = true ∧
    stepRow .hh13 #v[0xE7859CD3, 0xC52F5AFF, 0x95207D6E, 0x92D2BF93] 11 0x2F2E2D2C 3 0xCB2745D0 0xAE = true ∧
    stepRow .hh14 #v[0xE7859CD3, 0xC52F5AFF, 0x95207D6E, 0xCB2745D0] 7 0x1F1E1D1C 2 0x30513865 0xAF = true ∧
    stepRow .hh15 #v[0xE7859CD3, 0xC52F5AFF, 0x30513865, 0xCB2745D0] 15 0x3F3E3D3C 1 0xB2A1481D 0xC0 = true := by
  decide

/-- R128's example, the first step of every hash of the empty message (trace T0). -/
theorem test_ff0_trace_T0 : stepRow .ff0 romIV 0 0x00000080 0 0x000003F8 0x81 = true := by decide

/-! ## HALT, LDBLK, FEED -/

/-- R130. -/
theorem test_halt : exec .halt doneState = .next doneState := rfl
/-- R129's example: the empty message. -/
theorem test_ldblk_empty :
    answers (exec .ldblk loadState) (fun t =>
      decide (t.x = (Vector.replicate 16 0).set 0 0x00000080) && decide (t.w = romIV) && decide (t.seq = 0x80)) =
      true := by
  decide
/-- R264: a byte below MLEN that was never written. -/
theorem test_ldblk_unwritten : faults (exec .ldblk { loadState with mlen := 1 }) .unwrittenMessageByte = true := by decide
/-- R131's example: the last block of the empty message. -/
theorem test_feed_last :
    answers (exec .feed { loadState with seq := 0xC0, w := #v[0x798AB330, 0x421BBF48, 0x3E9E5FB9, 0xB0576C6A] })
      (fun t => decide (t.h = emptyDigest) && decide (t.blk = 1) && decide (t.seq = 0x00) && t.done) = true := by
  decide
/-- 95 section 2.8: L = 56, BLK = 0: NB = 2, goes to `0x40`. -/
theorem test_feed_another :
    answers (exec .feed { loadState with seq := 0xC0, mlen := 56 })
      (fun t => decide (t.blk = 1) && decide (t.seq = 0x40) && !t.done) = true := by
  decide

/-! ## Host operations (95 section 2.9) -/

theorem test_nop_idle : answers (exec .nop State.reset) (fun t => decide (t = State.reset)) = true := by decide
theorem test_wrlen_idle : answers (exec (.wrlen 11) State.reset) (fun t => decide (t.mlen = 11)) = true := by decide
theorem test_wrlen_busy : answers (exec (.wrlen 5) loadState) (fun t => decide (t = loadState)) = true := by decide
theorem test_wrmsg_beyond :
    answers (exec (.wrmsg 7 0xFF) { State.reset with mlen := 3 })
      (fun t => decide (t.msg.read 7 = some 0xFF) && decide (t.msg.read 6 = none)) = true := by
  decide
/-- "a write after DONE leaves H and DONE unchanged" (R223). -/
theorem test_wrmsg_done :
    answers (exec (.wrmsg 0 0x61) doneState)
      (fun t => decide (t.msg.read 0 = some 0x61) && decide (t.h = emptyDigest) && t.done) = true := by
  decide
theorem test_start_done :
    answers (exec .start doneState)
      (fun t => decide (t.h = romIV) && decide (t.blk = 0) && !t.done && decide (t.seq = 0x40)) = true := by
  decide
theorem test_start_busy : answers (exec .start loadState) (fun t => decide (t = loadState)) = true := by decide
theorem test_rdstat :
    answers (exec .rdstat State.reset) (fun t => decide (t.hres = some 0)) = true ∧
      answers (exec .rdstat loadState) (fun t => decide (t.hres = some 1)) = true ∧
      answers (exec .rdstat doneState) (fun t => decide (t.hres = some 2)) = true := by
  decide
theorem test_rdh_done : answers (exec (.rdh 3) doneState) (fun t => decide (t.hres = some 0xC089C0E0)) = true := by decide
theorem test_rdh_reserved : refuses (exec (.rdh 4) doneState) .reservedHidx = true := by decide
theorem test_rddig_done :
    answers (exec (.rddig 4) doneState) (fun t => decide (t.hres = some 0x000000D1)) = true ∧
      answers (exec (.rddig 15) doneState) (fun t => decide (t.hres = some 0x000000C0)) = true := by
  decide
theorem test_rddig_idle : answers (exec (.rddig 0) State.reset) (fun t => decide (t = State.reset)) = true := by decide

/-! ## The reset input -/

/-- 95 P6: a reset while BUSY, here one that comes while LDBLK is the next micro-operation and START is held; the START is
dropped, what follows the reset is issued, and nothing is readable of the message (R270). -/
theorem test_reset_while_busy :
    answers (step { oneByteLoad with port := [hostWordOf .start], resets := [⟨0, [hostWordOf .rdstat]⟩] })
      (fun t => decide (t.seq = 0x00) && !t.done && decide (t.mlen = 0) && decide (t.msg = []) &&
        decide (t.port = [hostWordOf .rdstat]) && decide (t.resets = [])) = true := by
  decide
/-- A reset to come is an instant nearer after each instruction, and is asserted when no instant is left. -/
theorem test_reset_comes_nearer :
    answers (step { loadState with resets := [⟨1, []⟩] }) (fun t => decide (t.seq = 0x80) && t.resetPin) = true := by
  decide

/-! ## MSG -/

/-- R223: "the last write wins", and the addresses stay strictly rising. -/
theorem test_memory_write :
    Memory.write (Memory.write (Memory.write [] 3 0x33) 1 0x11) 3 0x44 = [(1, 0x11), (3, 0x44)] := by decide

/-! ## The digest (95 sections 2.3 and 2.7) -/

/-- The source's vector S1, the empty message. -/
theorem test_hash_S1 : Machine.hash [] = emptyDigest := by decide +kernel
/-- The source's vector S2, `Hello world`. -/
theorem test_hash_S2 :
    Machine.hash [0x48, 0x65, 0x6C, 0x6C, 0x6F, 0x20, 0x77, 0x6F, 0x72, 0x6C, 0x64] =
      #v[0xEDE7342F, 0x870B18C8, 0xFF598157, 0x1A7CE858] := by
  decide +kernel
/-- The pattern message of 56 bytes: two blocks. -/
theorem test_hash_pattern_56 :
    Machine.hash ((List.range 56).map (BitVec.ofNat 8)) = #v[0x644BE9B8, 0x6EFABB08, 0xF25B80C9, 0xBD5CC01B] := by
  decide +kernel
/-- R211's example. -/
theorem test_digestHex : digestHex emptyDigest = "31d6cfe0d16ae931b73c59d7e0c089c0" := by decide +kernel

/-! ## Pseudo-operations (R89) -/

theorem test_loadMsg : loadMsg [0x61, 0x62] = [.wrlen 2, .wrmsg 0 0x61, .wrmsg 1 0x62] := by decide
theorem test_compressOps : compressOps.length = 50 := by decide

/-! ## Witnesses: states and operands that meet the hypotheses of the statements -/

/-- A busy state with RDSTAT pending. -/
def busyPolled : State := { loadState with port := [hostWordOf .rdstat] }


theorem witness_RotationMovesEachBit : ((1 ≤ 1 ∧ 1 ≤ 31) ∧ (1 ≤ 31 ∧ 31 ≤ 31)) ∧ (0 < 32 ∧ 31 < 32) := by decide
theorem witness_MixingActsBitByBit : 0 < 32 ∧ 31 < 32 := by decide
theorem witness_LittleEndianPacking : (0 < 4 ∧ 3 < 4) ∧ 2 ^ 64 - 1 < 2 ^ 64 ∧ 7 < 8 := by decide
theorem witness_ZeroCountIsLeast : (0 + 1 + 55) % 64 = 56 ∧ 55 % 64 ≤ 55 ∧ 56 ≤ 56 % 64 := by decide
theorem witness_ByteViewShowsThePaddedMessage :
    oneByte.Holds [0x61] ∧ 0 < (pad [0x61]).length ∧ 63 < (pad [0x61]).length ∧ (pad [0x61]).length ≤ 64 := by decide
theorem witness_LengthFieldIsLittleEndianAndWraps : 0 < 8 ∧ 7 < 8 := by decide
theorem witness_PaddingIsInjective :
    ([] : List Byte).length < 2 ^ 61 ∧ ([0x61] : List Byte).length < 2 ^ 61 ∧ pad [0x61] = pad [0x61] := by decide
theorem witness_DecodeOfEncode : (Instr.rdh 3).wellFormed = true ∧ (Instr.wrmsg 7 0xFF).wellFormed = true := by decide
theorem witness_EncodeOfDecoded :
    decode (.seq 0xAF) = .instr .hh15 ∧ decode (.host { hostCode 0b101 with hidx := 3 }) = .instr (.rdh 3) := by decide
theorem witness_ReservedCodesAreExactly :
    decode (.seq 0x3F) = .reserved .seq ∧ decode (.host { hostCode 0b101 with hidx := 4 }) = .reserved .hidx := by decide
/-- The steps run in every state; the one hypothesis is that a register is not the destination. -/
theorem witness_StepRule : (1 : Fin 4) ≠ 0 ∧ (2 : Fin 4) ≠ 3 ∧ (3 : Fin 4) ≠ 2 ∧ (0 : Fin 4) ≠ 1 := by decide
theorem witness_FourStepsAsRotatingNames : 0 < 4 ∧ 3 < 4 := by decide
theorem witness_LdblkLoadsTheBlock :
    oneByteLoad.blk < (oneByteLoad.mlen + 8) / 64 + 1 ∧ oneByteLoad.MessageWritten := by decide
/-- BLK at NB; BLK below it with a byte missing; the same as the next step of a run. -/
theorem witness_LdblkStopsExactlyWhenAByteIsMissing :
    (0 + 8) / 64 + 1 ≤ { loadState with blk := 1 }.blk ∧
      (let s : State := { loadState with mlen := 1 }
       s.blk < (s.mlen + 8) / 64 + 1 ∧ s.msg.read 0 = none ∧ s.resetPin = false ∧ s.port = [] ∧ s.seq = 0x40) := by
  decide
theorem witness_FeedAddsLanesAndMovesOn : 0 + 1 < (56 + 8) / 64 + 1 ∧ (0 + 8) / 64 + 1 ≤ 0 + 1 := by decide
theorem witness_HaltWaitsForStart :
    let s : State := { State.reset with port := [hostWordOf .start] }
    s.seq = 0x00 ∧ ∃ t, step s = .next t ∧ t.seq ≠ 0x00 := by
  refine ⟨rfl, _, rfl, ?_⟩
  decide
/-- Accepted and held: WRLEN, WRMSG, START. -/
theorem witness_held_while_busy : State.reset.seq = 0x00 ∧ loadState.seq ≠ 0x00 := by decide
theorem witness_WrmsgWritesOneByte : (1 : Nat) ≠ 0 := by decide
theorem witness_RdstatReturnsBusyAndDone : doneState.WellFormed ∧ loadState.WellFormed := by decide
/-- Accepted, held and reserved: RDH, RDDIG; the last index and the first reserved one. -/
theorem witness_digest_reads :
    (3 : BitVec 4).toNat < 4 ∧ 4 ≤ (4 : BitVec 4).toNat ∧ doneState.done = true ∧ State.reset.done = false := by decide
theorem witness_AcceptanceTable :
    Instr.start.agent = .host ∧ Instr.start.wellFormed = true ∧ State.reset.WellFormed ∧ State.reset.seq = 0x00 ∧
      loadState.WellFormed ∧ loadState.seq ≠ 0x00 := by
  decide
/-- The capacity itself as an address and as a length, and one below. -/
theorem witness_FiniteCapacityRefuses :
    State.reset.seq = 0x00 ∧ 4 ≤ 4 ∧ 3 < 4 ∧ 4 < { State.reset with mlen := 5 }.mlen ∧
      { State.reset with mlen := 4 }.mlen ≤ 4 ∧ loadState.seq ≠ 0x00 := by
  decide
/-- No operation; a held one; an accepted one that waits for the sequencer. -/
theorem witness_StepRunsTheSequencer :
    loadState.resetPin = false ∧ decode (.seq loadState.seq) = .instr .ldblk ∧ loadState.port = [] ∧
      decode (.host (hostWordOf .start)) = .instr .start ∧ accepted .start loadState = false ∧
      decode (.host (hostWordOf .rdstat)) = .instr .rdstat ∧ accepted .rdstat busyPolled = true ∧
      busyPolled.seq ≠ 0x00 ∧ busyPolled.hostFirst = false ∧ busyPolled.port = [hostWordOf .rdstat] := by
  decide
theorem witness_StepRunsTheHostOperation :
    let idle : State := { State.reset with port := [hostWordOf .start] }
    let polled : State := { busyPolled with hostFirst := true }
    (idle.resetPin = false ∧ legalSeq idle.seq = true ∧ decode (.host (hostWordOf .start)) = .instr .start ∧
      accepted .start idle = true ∧ idle.seq = 0x00) ∧
      (polled.resetPin = false ∧ legalSeq polled.seq = true ∧ decode (.host (hostWordOf .rdstat)) = .instr .rdstat ∧
        accepted .rdstat polled = true ∧ polled.hostFirst = true) := by
  decide
theorem witness_ResetInputGivesTheResetState : { loadState with resets := [⟨0, []⟩] }.resetPin = true := rfl
/-- A reset with operations after it, and one with nothing after it. -/
theorem witness_ResetDropsWhatIsPending :
    { busyPolled with resets := [⟨0, [hostWordOf .rdstat]⟩] }.resets = [⟨0, [hostWordOf .rdstat]⟩] ∧
      (let s : State := { busyPolled with resets := [⟨0, []⟩] }
       s.resets = [⟨0, []⟩] ∧ ∃ t, step s = .next t ∧ t.port = []) :=
  ⟨rfl, rfl, _, rfl, rfl⟩
/-- P6: a reset at the second micro-operation of the hash of the empty message, then RDSTAT. -/
theorem witness_ResetAbandonsARunningHash :
    let s : State := { loadState with resets := [⟨1, [hostWordOf .rdstat]⟩] }
    s.Hashing [] ∧ s.port = [] ∧ 1 < s.remaining (numBlocks 0) :=
  ⟨⟨by decide, rfl, by decide, rfl, .inl rfl⟩, rfl, by decide⟩
theorem witness_AcceptedOperationsLeaveThePort :
    Instr.rdstat.wellFormed = true ∧ accepted .rdstat busyPolled = true ∧ (Instr.rdh 3).wellFormed = true ∧
      accepted (.rdh 3) doneState = true ∧ Instr.start.wellFormed = true ∧ accepted .start State.reset = true := by
  decide
theorem witness_ReservedCodesAreRefused :
    { State.reset with seq := 0xB0 }.resetPin = false ∧ legalSeq 0xB0 = false ∧ State.reset.resetPin = false ∧
      legalSeq State.reset.seq = true ∧ (hostCode 0b111).hop = 0b111 ∧
      { hostCode 0b101 with hidx := 4 }.hop = 0b101 ∧ 4 ≤ { hostCode 0b101 with hidx := 4 }.hidx.toNat := by
  decide
theorem witness_DigestReadWithoutAHashIsStuck :
    State.Stuck { State.reset with port := [hostWordOf (.rddig 0)] } :=
  ⟨rfl, rfl, rfl, _, _, rfl, .inr ⟨0, rfl⟩⟩
theorem witness_StepKeepsWellFormed : oneByteLoad.WellFormed ∧ ∃ t, step oneByteLoad = .next t :=
  ⟨by decide, _, rfl⟩
theorem witness_NothingStopsAWrittenMessage :
    busyPolled.WellFormed ∧ busy busyPolled = true ∧ busyPolled.MessageWritten ∧ busyPolled.PortLegal ∧
      oneByteLoad.WellFormed ∧ busy oneByteLoad = true ∧ oneByteLoad.MessageWritten ∧ oneByteLoad.PortLegal := by
  decide
theorem witness_OnlyTheListedOperationsWrite :
    (∃ t, exec .start doneState = .next t ∧ t.h ≠ doneState.h ∧ t.seq ≠ doneState.seq ∧ t.done ≠ doneState.done ∧
      t.blk ≠ doneState.blk) ∧
      (∃ t, exec .ldblk loadState = .next t ∧ t.w ≠ loadState.w ∧ t.x ≠ loadState.x) ∧
      (∃ t, exec (.wrlen 1) State.reset = .next t ∧ t.mlen ≠ State.reset.mlen) ∧
      (∃ t, exec (.wrmsg 0 0x61) State.reset = .next t ∧ t.msg.read 0 ≠ State.reset.msg.read 0) ∧
      (∃ t, exec .rdstat busyPolled = .next t ∧ t.port ≠ busyPolled.port ∧ t.hres ≠ busyPolled.hres) := by
  refine ⟨⟨_, rfl, ?_⟩, ⟨_, rfl, ?_⟩, ⟨_, rfl, ?_⟩, ⟨_, rfl, ?_⟩, ⟨_, rfl, ?_⟩⟩ <;> decide
theorem witness_DigestIsFrozen :
    doneState.WellFormed ∧ doneState.resetPin = false ∧ doneState.done = true ∧ ∃ t, step doneState = .next t :=
  ⟨by decide, rfl, rfl, _, rfl⟩
theorem witness_MessageIsImmutableWhileHashed :
    oneByteLoad.seq ≠ 0x00 ∧ oneByteLoad.resetPin = false ∧ ∃ t, step oneByteLoad = .next t :=
  ⟨by decide, rfl, _, rfl⟩
/-- A micro-operation that runs and one that faults, each with an operation that could go first. -/
theorem witness_BothOrdersAgree :
    (busyPolled.WellFormed ∧ busyPolled.seq ≠ 0x00 ∧ decodeSeq busyPolled.seq = .instr .ldblk ∧
      Instr.rdstat.agent = .host ∧ accepted .rdstat busyPolled = true ∧ ∃ t, exec .ldblk busyPolled = .next t) ∧
      (let s : State := { busyPolled with mlen := 1 }
       s.WellFormed ∧ s.seq ≠ 0x00 ∧ decodeSeq s.seq = .instr .ldblk ∧ accepted .rdstat s = true ∧
         exec .ldblk s = .fault .unwrittenMessageByte) :=
  ⟨⟨by decide, by decide, by decide, rfl, rfl, _, rfl⟩, by decide, by decide, by decide, rfl, rfl⟩
/-- Two states that differ in what the host cannot see: H while DONE = 0, and W, BLK, MLEN, MSG while DONE = 1. -/
theorem witness_HostCannotSeeHiddenState :
    let other : State := { doneState with w := romIV, blk := 7, mlen := 3, msg := [(0, 0x61)] }
    let idle : State := { State.reset with h := romIV }
    (State.reset.WellFormed ∧ idle.WellFormed ∧ busy State.reset = busy idle ∧ State.reset.done = idle.done ∧
      State.reset.done = false ∧ State.reset.h ≠ idle.h ∧ (∃ t, exec .rdstat State.reset = .next t) ∧
      ∃ t', exec .rdstat idle = .next t') ∧
    (Instr.rdh 3).agent = .host ∧ doneState.WellFormed ∧ other.WellFormed ∧ busy doneState = busy other ∧
      doneState.done = other.done ∧ doneState.h = other.h ∧ doneState.port = other.port ∧ doneState.hres = other.hres ∧
      doneState ≠ other ∧ (∃ t, exec (.rdh 3) doneState = .next t) ∧ ∃ t', exec (.rdh 3) other = .next t' :=
  ⟨⟨by decide, by decide, by decide, rfl, rfl, by decide, ⟨_, rfl⟩, ⟨_, rfl⟩⟩,
    rfl, by decide, by decide, by decide, rfl, rfl, rfl, rfl, by decide, ⟨_, rfl⟩, ⟨_, rfl⟩⟩
/-- Two messages of one length. -/
theorem witness_SequenceDependsOnLengthAlone :
    let other : State := { oneByteLoad with msg := [(0, 0x62)] }
    Instr.ldblk.agent = .sequencer ∧ oneByteLoad.seq = other.seq ∧ oneByteLoad.blk = other.blk ∧
      oneByteLoad.mlen = other.mlen ∧ oneByteLoad.done = other.done ∧ oneByteLoad ≠ other ∧
      (∃ t, exec .ldblk oneByteLoad = .next t) ∧ ∃ t', exec .ldblk other = .next t' :=
  ⟨rfl, rfl, rfl, rfl, rfl, by decide, ⟨_, rfl⟩, ⟨_, rfl⟩⟩
/-- The last block, and one before it. -/
theorem witness_FiftyMicroOperationsCompressABlock :
    (oneByteLoad.Holds [0x61] ∧ oneByteLoad.NoResetFor 50 ∧ oneByteLoad.port = [] ∧ oneByteLoad.seq = 0x40 ∧
      oneByteLoad.blk < numBlocks 1 ∧ oneByteLoad.blk + 1 = numBlocks 1) ∧
      (let m : List Byte := List.replicate 56 0x61
       let long : Memory := (List.range 56).map fun a => (a, 0x61)
       let s : State := { loadState with mlen := 56, msg := long, resets := [⟨50, []⟩] }
       s.Holds m ∧ s.NoResetFor 50 ∧ s.port = [] ∧ s.seq = 0x40 ∧ s.blk + 1 < numBlocks m.length) := by
  decide +kernel
theorem witness_StartBeginsTheHash : oneByte.Holds [0x61] ∧ oneByte.seq = 0x00 := by decide
/-- A hash in phase LOAD, before its first step and before FEED, with an operation pending. -/
theorem witness_EveryStepAdvancesTheHash :
    (busyPolled.Hashing [] ∧ busyPolled.resetPin = false ∧ busyPolled.PortLegal) ∧
      State.Hashing [] { busyPolled with seq := 0x80, x := blockOf [] 0, w := romIV } ∧
      State.Hashing [] { busyPolled with seq := 0xC0, x := blockOf [] 0, w := workAfter romIV (blockOf [] 0) 48 } :=
  ⟨⟨⟨by decide, rfl, by decide, rfl, .inl rfl⟩, rfl, by decide⟩,
    ⟨by decide, rfl, by decide, rfl, .inr ⟨0, by decide, rfl, rfl, rfl⟩⟩,
    ⟨by decide, rfl, by decide, rfl, .inr ⟨48, by decide, rfl, rfl, rfl⟩⟩⟩
theorem witness_StartDeliversTheHash :
    let s : State := { oneByte with port := [hostWordOf .start] }
    s.Holds [0x61] ∧ s.seq = 0x00 ∧ s.NoResetFor (1 + 50 * numBlocks 1) ∧ s.port = [hostWordOf .start] := by
  decide
theorem witness_WordAndByteReadsAgree : doneState.done = true ∧ (3 : BitVec 4).toNat < 4 := by decide

/-- Every instruction's code stands on its own port (the family of LAWS.json). -/
theorem test_perInstr_hh15 : Sys2Proof.Laws.EncodesOnItsPort.Statement .hh15 := Sys2Proof.Laws.EncodesOnItsPort.hh15

end Sys2Proof.Tests
end

section
/-!
PROOFS. The arithmetic of R9: words as base 256 numerals, packed from bytes and taken apart into bytes. Settles O4.
-/
namespace Sys2Proof.Machine

open Sys2Proof

/-- Appending bit vectors is positional: the left one counts in units of `2 ^ n`. -/
theorem toNat_append_eq_add {m n : Nat} (x : BitVec m) (y : BitVec n) :
    (x ++ y).toNat = 2 ^ n * x.toNat + y.toNat := by
  rw [BitVec.toNat_append, ← Nat.shiftLeft_add_eq_or_of_lt y.isLt, Nat.shiftLeft_eq, Nat.mul_comm]

theorem le32_toNat (b0 b1 b2 b3 : Byte) :
    (le32 b0 b1 b2 b3).toNat = b0.toNat + 2 ^ 8 * b1.toNat + 2 ^ 16 * b2.toNat + 2 ^ 24 * b3.toNat := by
  simp only [le32, toNat_append_eq_add]
  omega

/-- R9 for every index: past the word's four bytes both sides are 0. -/
theorem byte32_toNat (v : Word) (j : Nat) : (byte32 v j).toNat = v.toNat / 2 ^ (8 * j) % 256 := by
  rw [byte32, BitVec.extractLsb'_toNat, Nat.shiftRight_eq_div_pow]

/-- R9 for every value and index; the bound of 2^64 is not needed for the formula. -/
theorem byte64_toNat (v j : Nat) : (byte64 v j).toNat = v / 2 ^ (8 * j) % 256 :=
  BitVec.toNat_ofNat _ 8

/-- The four bytes of a word are its digits in base 256. -/
@[simp] theorem le32_byte32 (v : Word) : le32 (byte32 v 0) (byte32 v 1) (byte32 v 2) (byte32 v 3) = v := by
  apply BitVec.eq_of_toNat_eq
  have hv : v.toNat < 2 ^ 32 := v.isLt
  simp only [le32_toNat, byte32_toNat]
  omega

/-- Settles O4: each formula of R9 from its equation on naturals, and the inverse from the digits in base 256. -/
theorem littleEndianPacking : Obligations.LittleEndianPacking :=
  ⟨le32_toNat, fun v j _ => byte32_toNat v j, fun v j _ _ => byte64_toNat v j, le32_byte32⟩

end Sys2Proof.Machine
end

section
/-!
PROOFS. Well-formedness (R36): when a well-formed state is busy, what the reset input and each agent's instructions keep of
it, and so what every step keeps. Settles O43 and O42.
-/
namespace Sys2Proof.Machine

open Sys2Proof

/-- SEQ is its phase above its six lower bits (R81). -/
theorem seq_eq_zero_of_fields {b : BitVec 8} (hp : seqPhase b = 0) (hl : b.extractLsb' 0 6 = 0) : b = 0x00 := by
  have hp' := congrArg BitVec.toNat hp
  have hl' := congrArg BitVec.toNat hl
  simp only [seqPhase, BitVec.extractLsb'_toNat, Nat.shiftRight_eq_div_pow] at hp' hl'
  apply BitVec.eq_of_toNat_eq
  simp only [BitVec.ofNat_eq_ofNat, BitVec.toNat_ofNat] at hp' hl' ⊢
  omega

/-- Of the 51 values of SEQ, `0x00` is the only one in phase HALT (R25). -/
theorem seqPhase_eq_zero_iff {b : BitVec 8} (h : legalSeq b = true) : seqPhase b = 0 ↔ b = 0x00 := by
  refine ⟨fun hp => seq_eq_zero_of_fields hp ?_, fun hb => by subst hb; rfl⟩
  by_contra hl
  have hr : decodeSeq b = .reserved .seq := by rw [decodeSeq, hp]; exact if_neg hl
  simp [legalSeq, hr, Decoded.toOption] at h

theorem legalSeq_of_decodeSeq {b : BitVec 8} {u : Instr} (h : decodeSeq b = .instr u) : legalSeq b = true := by
  simp [legalSeq, h, Decoded.toOption]

theorem decodeSeq_halt : decodeSeq 0x00 = .instr .halt := rfl
theorem legalSeq_halt : legalSeq 0x00 = true := by decide
theorem legalSeq_ldblk : legalSeq 0x40 = true := by decide
theorem legalSeq_ff0 : legalSeq 0x80 = true := by decide

/-- BUSY as the acceptance table reads it (R229): a legal SEQ other than `0x00`. -/
theorem busy_eq_false_iff {s : State} (h : legalSeq s.seq = true) : busy s = false ↔ s.seq = 0x00 := by
  simpa [busy] using seqPhase_eq_zero_iff h

theorem busy_of_decodeSeq {s : State} {u : Instr} (hd : decodeSeq s.seq = .instr u) (hu : u ≠ .halt) :
    busy s = true := by
  by_contra hb
  have h0 := (busy_eq_false_iff (legalSeq_of_decodeSeq hd)).1 (by simpa using hb)
  rw [h0, decodeSeq_halt] at hd
  exact hu (Decoded.instr.inj hd).symm

theorem busy_of_seq_zero {s : State} (h : s.seq = 0x00) : busy s = false := by
  simp [busy, h, seqPhase]

/-- A well-formed busy machine has no digest. -/
theorem State.WellFormed.done_of_busy {s : State} (h : s.WellFormed) (hb : busy s = true) : s.done = false := by
  obtain ⟨-, hdone, -, -⟩ := h
  by_contra hd
  simp [busy_of_seq_zero (hdone (by simpa using hd))] at hb

/-- Well-formedness reads SEQ, DONE, BLK, MLEN and MSG, and nothing else. -/
theorem State.WellFormed.congr {s t : State} (h : s.WellFormed) (hseq : t.seq = s.seq) (hdone : t.done = s.done)
    (hblk : t.blk = s.blk) (hmlen : t.mlen = s.mlen) (hmsg : t.msg = s.msg) : t.WellFormed := by
  simpa [State.WellFormed, busy, hseq, hdone, hblk, hmlen, hmsg] using h

theorem State.WellFormed.nextInstant {s : State} (h : s.WellFormed) : s.nextInstant.WellFormed :=
  h.congr rfl rfl rfl rfl rfl

theorem takeReset_wellFormed (s : State) : s.takeReset.WellFormed :=
  ⟨legalSeq_halt, by simp, by rw [busy_of_seq_zero rfl]; simp, rfl⟩

/-- Settles O42. -/
theorem resetIsWellFormed : Obligations.ResetIsWellFormed :=
  ⟨by decide, takeReset_wellFormed⟩

/-- The SEQ that a step leaves is one of its 51 values (R128). -/
theorem legalSeq_schedule_next (r : Fin 3) (n : Fin 16) : legalSeq (schedule r n).next = true := by
  revert r n; decide

theorem stepInstr_ne_halt (r : Fin 3) (n : Fin 16) : stepInstr r n ≠ .halt := by
  revert r n; decide

/-- The micro-operation that SEQ selects keeps a well-formed state well formed. -/
theorem exec_sequencer_wellFormed {u : Instr} {s t : State} (hs : s.WellFormed) (hd : decodeSeq s.seq = .instr u)
    (h : exec u s = .next t) : t.WellFormed := by
  have hbusy : u ≠ .halt → busy s = true := busy_of_decodeSeq hd
  obtain ⟨-, -, hblk, hmsg⟩ := id hs
  rcases exec_sequencer_next (agent_of_decodeSeq hd) h with
    ⟨rfl, rfl⟩ | ⟨rfl, block, -, rfl⟩ | ⟨rfl, hlt, rfl⟩ | ⟨rfl, -, rfl⟩ | ⟨r, n, rfl, rfl⟩
  · exact hs
  · have hb := hbusy (by simp)
    exact ⟨legalSeq_ff0, by simp [hs.done_of_busy hb], by simpa using fun _ => hblk hb, hmsg⟩
  · exact ⟨legalSeq_ldblk, by simp [hs.done_of_busy (hbusy (by simp))], by simpa using fun _ => hlt, hmsg⟩
  · exact ⟨legalSeq_halt, by simp, by rw [busy_of_seq_zero rfl]; simp, hmsg⟩
  · have hb := hbusy (stepInstr_ne_halt r n)
    exact ⟨legalSeq_schedule_next r n, by simp [hs.done_of_busy hb], by simpa using fun _ => hblk hb, hmsg⟩

/-- A host operation keeps a well-formed state well formed. -/
theorem exec_host_wellFormed {i : Instr} {s t : State} (hs : s.WellFormed) (hi : i.agent = .host)
    (h : exec i s = .next t) : t.WellFormed := by
  obtain ⟨hseq, hdone, hblk, hmsg⟩ := id hs
  rcases exec_host_next hi h with ⟨-, rfl⟩ | ⟨hacc, ⟨rfl, rfl⟩ | ⟨len, rfl, rfl⟩ | ⟨a, b, rfl, rfl⟩ | ⟨rfl, rfl⟩ |
    ⟨rfl, rfl⟩ | ⟨j, hj, rfl, rfl⟩ | ⟨j, rfl, rfl⟩⟩
  · exact hs
  · exact hs.congr rfl rfl rfl rfl rfl
  · have h0 : s.seq = 0x00 := by simpa [accepted] using hacc
    exact ⟨hseq, hdone, by simp [busy_of_seq_zero, h0], hmsg⟩
  · exact ⟨hseq, hdone, hblk, Memory.write_wf _ _ _ hmsg⟩
  · exact ⟨legalSeq_ldblk, by simp, by simp [numBlocks], hmsg⟩
  · exact hs.congr rfl rfl rfl rfl rfl
  · exact hs.congr rfl rfl rfl rfl rfl
  · exact hs.congr rfl rfl rfl rfl rfl

/-- Settles O43: the reset state is well formed, and so is what either agent's instruction leaves; the next instant
changes nothing that well-formedness reads. -/
theorem stepKeepsWellFormed : Obligations.StepKeepsWellFormed := by
  intro s t hs h
  rcases step_next h with ⟨-, rfl⟩ | ⟨-, i, v, hf, hv, rfl⟩
  · exact (takeReset_wellFormed s).congr rfl rfl rfl rfl rfl
  · obtain ⟨-, u, hu, rfl | ⟨w, rest, -, -, hacc, -⟩⟩ := fetch_run hf
    · exact (exec_sequencer_wellFormed hs hu hv).nextInstant
    · exact (exec_host_wellFormed hs (agent_of_accepted hacc) hv).nextInstant

end Sys2Proof.Machine
end

section
/-!
PROOFS. What is fetched at an instant, and what the step then is: the sequencer's turn, the host's turn and the reset input
(R220, R260). Settles O36 and O38.
-/
namespace Sys2Proof.Machine

open Sys2Proof

/-- With an idle port the sequencer moves. -/
theorem fetch_of_idle_port {s : State} {u : Instr} (hr : s.resetPin = false) (hu : decodeSeq s.seq = .instr u)
    (hp : s.port = []) : fetch s = .run u := by
  simp [fetch, hr, hu, hp]

/-- With an operation pending that is none of the reserved ones, one of the agents moves. -/
theorem fetch_of_pending {s : State} {u i : Instr} {w : HostWord} {rest : List HostWord} (hr : s.resetPin = false)
    (hu : decodeSeq s.seq = .instr u) (hp : s.port = w :: rest) (hi : decodeHost w = .instr i) :
    fetch s = if hostMoves i s then .run i else .run u := by
  simp [fetch, hr, hu, hp, hi]

/-- The host moves exactly if its operation is accepted and the sequencer is in phase HALT or goes second. -/
theorem hostMoves_iff {i : Instr} {s : State} :
    hostMoves i s = true ↔ accepted i s = true ∧ (s.seq = 0x00 ∨ s.hostFirst = true) := by
  simp [hostMoves]

theorem hostMoves_eq_false {i : Instr} {s : State}
    (h : accepted i s = false ∨ (s.seq ≠ 0x00 ∧ s.hostFirst = false)) : hostMoves i s = false := by
  rw [← Bool.not_eq_true, hostMoves_iff]
  rintro ⟨hacc, hturn⟩
  rcases h with h | ⟨hseq, hfirst⟩ <;> simp_all

theorem fetch_of_host_turn {s : State} {u i : Instr} {w : HostWord} {rest : List HostWord} (hr : s.resetPin = false)
    (hu : decodeSeq s.seq = .instr u) (hp : s.port = w :: rest) (hi : decodeHost w = .instr i)
    (hacc : accepted i s = true) (hturn : s.seq = 0x00 ∨ s.hostFirst = true) : fetch s = .run i := by
  rw [fetch_of_pending hr hu hp hi, if_pos (hostMoves_iff.2 ⟨hacc, hturn⟩)]

/-- Settles O36: the micro-operation is fetched, whether the port is idle or the pending operation does not move. -/
theorem stepRunsTheSequencer : Obligations.StepRunsTheSequencer := by
  intro s u hr hu hport
  have hf : fetch s = .run u := by
    rcases hport with hp | ⟨w, rest, i, hp, hi, hstay⟩
    · exact fetch_of_idle_port hr hu hp
    · simp [fetch_of_pending hr hu hp hi, hostMoves_eq_false hstay]
  rw [step_of_run hf]
  cases exec u s <;> rfl

/-- Settles O38. -/
theorem resetInputGivesTheResetState : Obligations.ResetInputGivesTheResetState :=
  ⟨fun s h => ⟨s.takeReset.drawOrder, step_of_reset h, rfl, rfl, rfl, rfl, fun _ => rfl⟩,
    rfl, rfl, rfl, rfl, fun _ => rfl⟩

end Sys2Proof.Machine
end

section
/-!
PROOFS. What instructions write (R20), that a digest is frozen (R33), and what the host sees of the state (R35). Settles O45,
O46 and O49.
-/
namespace Sys2Proof.Machine

open Sys2Proof

/-- Settles O45: for each kind of instruction, the pieces of state that its effect updates. -/
theorem onlyTheListedOperationsWrite : Obligations.OnlyTheListedOperationsWrite := by
  intro i s t h
  cases hi : i.agent
  case sequencer =>
    rcases exec_sequencer_next hi h with ⟨rfl, rfl⟩ | ⟨rfl, block, -, rfl⟩ | ⟨rfl, -, rfl⟩ | ⟨rfl, -, rfl⟩ |
      ⟨r, n, rfl, rfl⟩
    · simp
    · simp
    · simp
    · simp
    · have hstep : ∃ r' n', stepInstr r n = stepInstr r' n' := ⟨r, n, rfl⟩
      simp [hstep]
  case host =>
    rcases exec_host_next hi h with ⟨-, rfl⟩ | ⟨-, ⟨rfl, rfl⟩ | ⟨len, rfl, rfl⟩ | ⟨a, b, rfl, rfl⟩ | ⟨rfl, rfl⟩ |
      ⟨rfl, rfl⟩ | ⟨j, hj, rfl, rfl⟩ | ⟨j, rfl, rfl⟩⟩
    · simp
    · simp
    · simp
    · have hread : ∀ a', (s.msg.write a b).read a' ≠ s.msg.read a' → a = a' := fun a' hne => by
        by_contra ha
        exact hne (Memory.read_write_other _ _ (Ne.symm ha))
      simpa using hread
    · simp
    · simp
    · simp
    · simp

/-- Settles O46: with DONE = 1 the sequencer is at HALT, so by the list of R20 only a START writes H or DONE, and it is
the host's. -/
theorem digestIsFrozen : Obligations.DigestIsFrozen := by
  intro s t hs hr hd h
  obtain ⟨-, hdone, -, -⟩ := hs
  rcases step_next h with ⟨hpin, -⟩ | ⟨-, i, v, hf, hv, rfl⟩
  · simp [hr] at hpin
  obtain ⟨-, u, hu, hwho⟩ := fetch_run hf
  rw [hdone hd, decodeSeq_halt] at hu
  obtain rfl := Decoded.instr.inj hu
  obtain ⟨hH, -, -, -, -, -, hDone, -⟩ := onlyTheListedOperationsWrite i s v hv
  by_cases hstart : i = .start
  · obtain rfl | ⟨w, rest, hp, hw, -⟩ := hwho
    · cases hstart
    · exact .inr ⟨w, rest, hp, hstart ▸ hw⟩
  · have hfeed : i ≠ .feed := by
      obtain rfl | ⟨w, rest, -, -, hacc, -⟩ := hwho
      · simp
      · rintro rfl; cases hacc
    left
    constructor
    · by_contra hne; rcases hH hne with rfl | rfl <;> contradiction
    · by_contra hne; rcases hDone (hd ▸ hne) with rfl | rfl <;> contradiction

/-- What an accepted host operation puts in HRES (R221 to R227, U13). -/
def hostResult (i : Instr) (s : State) : Option Word :=
  match i with
  | .rdstat => some (statusWord s)
  | .rdh j => if hj : j.toNat < 4 then some s.h[j.toNat] else none
  | .rddig j => some ((digByte s.h j.toFin).zeroExtend 32)
  | _ => none

/-- What the host sees of its operation: nothing while it is held; once accepted, its result and the port without it. -/
theorem exec_host_observed {i : Instr} {s t : State} (hi : i.agent = .host) (h : exec i s = .next t) :
    (accepted i s = false ∧ t.hres = s.hres ∧ t.port = s.port) ∨
    (accepted i s = true ∧ t.hres = hostResult i s ∧ t.port = s.port.tail) := by
  rcases exec_host_next hi h with ⟨hacc, rfl⟩ | ⟨hacc, hcases⟩
  · exact .inl ⟨hacc, rfl, rfl⟩
  · refine .inr ⟨hacc, ?_⟩
    rcases hcases with ⟨rfl, rfl⟩ | ⟨len, rfl, rfl⟩ | ⟨a, b, rfl, rfl⟩ | ⟨rfl, rfl⟩ | ⟨rfl, rfl⟩ | ⟨j, hj, rfl, rfl⟩ |
      ⟨j, rfl, rfl⟩
    · exact ⟨rfl, rfl⟩
    · exact ⟨rfl, rfl⟩
    · exact ⟨rfl, rfl⟩
    · exact ⟨rfl, rfl⟩
    · exact ⟨rfl, rfl⟩
    · exact ⟨by simp [hostResult, hj], rfl⟩
    · exact ⟨rfl, rfl⟩

/-- Acceptance depends on BUSY and DONE alone (R229). -/
theorem accepted_congr {s s' : State} (i : Instr) (hs : s.WellFormed) (hs' : s'.WellFormed) (hb : busy s = busy s')
    (hd : s.done = s'.done) : accepted i s = accepted i s' := by
  have hseq : s.seq = 0x00 ↔ s'.seq = 0x00 := by
    rw [← busy_eq_false_iff hs.1, ← busy_eq_false_iff hs'.1, hb]
  cases i
  case wrlen => exact decide_eq_decide.2 hseq
  case wrmsg => exact decide_eq_decide.2 hseq
  case start => exact decide_eq_decide.2 hseq
  case rdh => exact hd
  case rddig => exact hd
  all_goals rfl

/-- The result of an accepted operation depends on BUSY, DONE and, when DONE = 1, on H alone. -/
theorem hostResult_congr {s s' : State} (i : Instr) (hacc : accepted i s = true) (hb : busy s = busy s')
    (hd : s.done = s'.done) (hh : s.done = true → s.h = s'.h) : hostResult i s = hostResult i s' := by
  cases i
  case rdstat => simp [hostResult, statusWord, hb, hd]
  case rdh j => simp [hostResult, hh hacc]
  case rddig j => simp [hostResult, hh hacc]
  all_goals rfl

/-- Settles O49: acceptance agrees, and so does what an accepted operation returns. -/
theorem hostCannotSeeHiddenState : Obligations.HostCannotSeeHiddenState := by
  intro i s s' t t' hi hs hs' hb hd hh hport hhres h h'
  have hacc := accepted_congr i hs hs' hb hd
  rcases exec_host_observed hi h with ⟨ha, hr, hp⟩ | ⟨ha, hr, hp⟩ <;>
    rcases exec_host_observed hi h' with ⟨ha', hr', hp'⟩ | ⟨ha', hr', hp'⟩
  · exact ⟨by rw [hr, hr', hhres], by rw [hp, hp', hport]⟩
  · simp [ha, ha'] at hacc
  · simp [ha, ha'] at hacc
  · exact ⟨by rw [hr, hr', hostResult_congr i ha hb hd hh], by rw [hp, hp', hport]⟩

end Sys2Proof.Machine
end

section
/-!
PROOFS. What LDBLK reads of a message that the state holds: the bytes of Pad(m) through PadByte (R105), and a block of it
(R129).
-/
namespace Sys2Proof.Machine

open Sys2Proof

theorem len64_length (len : Nat) : (len64 len).length = 8 := by simp [len64]

theorem pad_length (m : List Byte) : (pad m).length = paddedLength m.length := by
  simp [pad, len64_length, paddedLength]
  omega

/-- The padded message is a whole number of blocks (R102). -/
theorem paddedLength_eq_blocks (len : Nat) : paddedLength len = 64 * numBlocks len := by
  simp only [paddedLength, zeroCount, numBlocks]
  omega

/-- The byte view of a message held in MSG shows Pad(m), in each of its four parts (R100, R105). -/
theorem pmsgByte_of_holds {m : List Byte} {s : State} (h : s.Holds m) {a : Nat} (ha : a < (pad m).length) :
    pmsgByte s.msg s.mlen a = .ok (pad m)[a] := by
  obtain ⟨hlen, hread⟩ := h
  have hP : a < m.length + 1 + zeroCount m.length + 8 := by simpa [pad_length, paddedLength] using ha
  rw [hlen]
  rcases lt_trichotomy a m.length with hlt | rfl | hgt
  · rw [pmsgByte_message hlt ((hread a hlt).trans (List.getElem?_eq_getElem hlt))]
    simp [pad, hlt]
  · rw [pmsgByte_marker]
    simp [pad]
  · by_cases hz : a < m.length + 1 + zeroCount m.length
    · rw [pmsgByte_zero hgt hz]
      simp only [pad]
      rw [List.getElem_append_left (by simp; omega), List.getElem_append_right (by simp; omega), List.getElem_replicate]
    · rw [pmsgByte_length (by omega) hP]
      simp only [pad]
      rw [List.getElem_append_right (by simp; omega)]
      simp [len64, Nat.add_assoc, Nat.add_comm 1]

theorem pmsgValue_of_holds {m : List Byte} {s : State} (h : s.Holds m) {a : Nat} (ha : a < (pad m).length) :
    pmsgValue s.msg s.mlen a = (pad m).getD a 0 := by
  rw [pmsgValue_of_ok (pmsgByte_of_holds h ha), List.getD_eq_getElem _ _ ha]

/-- Below NB a block of a message held in MSG can be read, and it is that block of Pad(m) (R129, R228). -/
theorem pmsgBlock_of_holds {m : List Byte} {s : State} (h : s.Holds m) {b : Nat} (hb : b < numBlocks m.length) :
    pmsgBlock s.msg s.mlen b = .ok (blockOf m b) := by
  have hin : ∀ j, j < 64 → 64 * b + j < (pad m).length := by
    intro j hj
    rw [pad_length, paddedLength_eq_blocks]
    omega
  rw [pmsgBlock_ok fun j hj => ⟨_, pmsgByte_of_holds h (hin j hj)⟩]
  have hword : ∀ k : Fin 16, pmsgWord s.msg s.mlen (64 * b + 4 * k.val) = wordOfBytes (pad m) b k := by
    intro k
    have hk := k.isLt
    simp only [pmsgWord, wordOfBytes, Nat.add_assoc]
    rw [pmsgValue_of_holds h (hin _ (by omega)), pmsgValue_of_holds h (hin _ (by omega)),
      pmsgValue_of_holds h (hin _ (by omega)), pmsgValue_of_holds h (hin _ (by omega))]
  simp only [hword, blockOf]

end Sys2Proof.Machine
end

section
/-!
PROOFS. The sequencer brings a hash forward by one micro-operation (R134, R135): LDBLK, each of the 48 steps, FEED with
another block to come, FEED at the end.
-/
namespace Sys2Proof.Machine

open Sys2Proof

/-- SEQ of the step numbered `n` selects that step (R82). -/
theorem decodeSeq_step {n : Nat} (hn : n < 48) :
    decodeSeq (BitVec.ofNat 8 (0x80 + n)) = .instr (stepInstr (roundOf n) (indexOf n)) := by
  revert n; decide

/-- A step is followed by the step with the next number, the last one by FEED (R128). -/
theorem schedule_next {n : Nat} (hn : n < 48) :
    (schedule (roundOf n) (indexOf n)).next = if n + 1 = 48 then 0xC0 else BitVec.ofNat 8 (0x80 + (n + 1)) := by
  revert n; decide

/-- In phase LOAD all 50 micro-operations of the block are to come (R135). -/
theorem State.remaining_of_load {s : State} (nb : Nat) (h : s.seq = 0x40) : s.remaining nb = 50 * (nb - s.blk) := by
  simp [State.remaining, h]

/-- After LDBLK and `n` steps `n + 1` of the 50 are behind (R135). -/
theorem State.remaining_of_steps {s : State} (nb : Nat) {n : Nat} (hn : n ≤ 48)
    (h : s.seq = if n = 48 then 0xC0 else BitVec.ofNat 8 (0x80 + n)) :
    s.remaining nb = 50 * (nb - s.blk) - (n + 1) := by
  have hdone : (if s.seq = 0x40 then 0 else if s.seq = 0xC0 then 49 else s.seq.toNat - 0x80 + 1) = n + 1 := by
    rw [h]; clear h; revert n; decide
  rw [State.remaining, hdone]

/-- With every block behind, no micro-operation is to come (R135). -/
theorem State.remaining_of_all_blocks {s : State} {nb : Nat} (h : s.blk = nb) : s.remaining nb = 0 := by
  simp [State.remaining, h]

/-- What one micro-operation makes of a hash in progress: it is still in progress, or this was the last one and the
digest is ready; the end is nearer by one, and the port is as before. -/
def State.AdvancesTo (m : List Byte) (s t : State) : Prop :=
  (t.Hashing m ∨ (t.HasDigest m ∧ t.Holds m ∧ t.blk = numBlocks m.length)) ∧
    t.remaining (numBlocks m.length) + 1 = s.remaining (numBlocks m.length) ∧ t.port = s.port

theorem exec_ldblk_advances {m : List Byte} {s : State} (hm : s.Holds m) (hd : s.done = false)
    (hb : s.blk < numBlocks m.length) (hh : s.h = chain m s.blk) (hseq : s.seq = 0x40) :
    ∃ t, exec .ldblk s = .next t ∧ s.AdvancesTo m t := by
  -- The block under a name of its own, so that comparing states does not compute the padded message.
  obtain ⟨block, hblock⟩ : ∃ block, block = blockOf m s.blk := ⟨_, rfl⟩
  have hx : exec .ldblk s = .next (((s.setX block).setW s.h).setSeq 0x80) := by
    simp [exec, execLdblk, pmsgBlock_of_holds hm hb, hblock]
  refine ⟨_, hx, .inl ⟨hm, hd, hb, hh, .inr ⟨0, by omega, hblock, rfl, rfl⟩⟩, ?_, rfl⟩
  rw [State.remaining_of_steps (n := 0) _ (by omega) rfl, State.remaining_of_load _ hseq]
  simp only [State.setSeq_blk, State.setW_blk, State.setX_blk]
  omega

theorem exec_step_advances {m : List Byte} {s : State} {n : Nat} (hm : s.Holds m) (hd : s.done = false)
    (hb : s.blk < numBlocks m.length) (hh : s.h = chain m s.blk) (hn : n < 48) (hx : s.x = blockOf m s.blk)
    (hw : s.w = workAfter s.h s.x n) (hseq : s.seq = BitVec.ofNat 8 (0x80 + n)) :
    ∃ t, exec (stepInstr (roundOf n) (indexOf n)) s = .next t ∧ s.AdvancesTo m t := by
  refine ⟨_, exec_stepInstr _ _ _, .inl ⟨hm, hd, hb, hh, .inr ⟨n + 1, hn, hx, ?_, schedule_next hn⟩⟩, ?_, rfl⟩
  · simp [workAfter, ← hw]
  · rw [State.remaining_of_steps (n := n + 1) _ hn (schedule_next hn),
      State.remaining_of_steps (n := n) _ hn.le (by rw [hseq, if_neg hn.ne])]
    simp only [State.setSeq_blk, State.setW_blk]
    omega

theorem exec_feed_advances {m : List Byte} {s : State} (hm : s.Holds m) (hd : s.done = false)
    (hb : s.blk < numBlocks m.length) (hh : s.h = chain m s.blk) (hx : s.x = blockOf m s.blk)
    (hw : s.w = workAfter s.h s.x 48) (hseq : s.seq = 0xC0) :
    ∃ t, exec .feed s = .next t ∧ s.AdvancesTo m t := by
  have hchain : addLanes s.h s.w = chain m (s.blk + 1) := by rw [hw, hx, hh]; rfl
  have hrem := State.remaining_of_steps (n := 48) (numBlocks m.length) le_rfl hseq
  refine ⟨_, exec_feed s, ?_⟩
  rw [hchain, hm.1]
  split
  next hlt =>
    refine ⟨.inl ⟨hm, hd, hlt, rfl, .inl rfl⟩, ?_, rfl⟩
    rw [hrem, State.remaining_of_load _ rfl]
    simp only [State.setSeq_blk, State.setBlk_blk]
    omega
  next hge =>
    have hlast : s.blk + 1 = numBlocks m.length := by omega
    refine ⟨.inr ⟨⟨rfl, rfl, by simp [hlast, hash]⟩, hm, hlast⟩, ?_, rfl⟩
    rw [hrem, State.remaining_of_all_blocks hlast]
    omega

/-- R134, R135: the micro-operation that SEQ selects in a hash in progress never stops, and brings it forward. -/
theorem State.Hashing.microOp {m : List Byte} {s : State} (h : s.Hashing m) :
    ∃ u t, decodeSeq s.seq = .instr u ∧ exec u s = .next t ∧ s.AdvancesTo m t := by
  obtain ⟨hm, hd, hb, hh, hseq | ⟨n, hn, hx, hw, hseq⟩⟩ := h
  · exact ⟨.ldblk, (exec_ldblk_advances hm hd hb hh hseq).imp fun t ht => ⟨by rw [hseq]; rfl, ht⟩⟩
  · rcases hn.lt_or_eq with hlt | rfl
    · rw [if_neg hlt.ne] at hseq
      exact ⟨_, (exec_step_advances hm hd hb hh hlt hx hw hseq).imp
        fun t ht => ⟨by rw [hseq, decodeSeq_step hlt], ht⟩⟩
    · exact ⟨.feed, (exec_feed_advances hm hd hb hh hx hw hseq).imp fun t ht => ⟨by rw [hseq]; rfl, ht⟩⟩

end Sys2Proof.Machine
end

section
/-!
PROOFS. A reset in the middle of a hash (R270, log 7): the hash goes on until the reset comes, which leaves the reset state,
and an RDSTAT issued after it returns 0. Settles O59.
-/
namespace Sys2Proof.Machine

open Sys2Proof Sys2Proof.Spec

theorem run_zero (s : State) : run 0 s = .next s := rfl

theorem run_succ {s t : State} (h : step s = .next t) (k : Nat) : run (k + 1) s = run k t :=
  (core_run_succ k s).trans (by rw [h]; rfl)

/-- A run goes on from where its first `k` steps lead. -/
theorem run_add {k : Nat} {s t : State} (h : run k s = .next t) (j : Nat) : run (k + j) s = run j t := by
  induction k generalizing s with
  | zero => cases h; simp
  | succ k ih =>
    rw [Nat.succ_add]
    simp only [run, core_run_succ] at h ⊢
    cases hs : step s with
    | next v => rw [hs] at h; exact ih h
    | fault f => rw [hs] at h; cases h
    | refused r => rw [hs] at h; cases h

/-- With nothing pending and no reset now, a step of a hash that is not at its last micro-operation keeps it in progress,
with one micro-operation fewer to go and the resets an instant nearer. -/
theorem State.Hashing.step {m : List Byte} {s : State} (h : s.Hashing m) (hp : s.port = []) (hr : s.resetPin = false)
    (hrem : 1 < s.remaining (numBlocks m.length)) :
    ∃ t, Machine.step s = .next t ∧ t.Hashing m ∧ t.port = [] ∧ t.resets = awaitReset s.resets ∧
      t.remaining (numBlocks m.length) + 1 = s.remaining (numBlocks m.length) := by
  obtain ⟨u, t, hu, ht, hnext, hless, hport⟩ := h.microOp
  refine ⟨t.nextInstant, ?_, ?_, hport.trans hp, by simp [exec_resets ht], hless⟩
  · rw [step_of_run (fetch_of_idle_port hr hu hp), ht]
    rfl
  · rcases hnext with hashing | ⟨-, -, hblk⟩
    · exact hashing
    · have hnone := State.remaining_of_all_blocks hblk
      omega

/-- Until the reset comes the hash goes on. -/
theorem State.Hashing.run_until_reset {m : List Byte} {s : State} {k : Nat} {ops : List HostWord}
    {rest : List ResetInput} (h : s.Hashing m) (hp : s.port = [])
    (hr : s.resets = { wait := k, thenIssue := ops } :: rest) (hk : k < s.remaining (numBlocks m.length)) :
    ∃ v, run k s = .next v ∧ v.Hashing m ∧ v.port = [] ∧ v.resets = { wait := 0, thenIssue := ops } :: rest := by
  induction k generalizing s with
  | zero => exact ⟨s, rfl, h, hp, hr⟩
  | succ k ih =>
    have hpin : s.resetPin = false := by simp [State.resetPin_of_cons s hr]
    obtain ⟨t, hstep, ht, htp, htr, hrem⟩ := h.step hp hpin (by omega)
    rw [run_succ hstep]
    exact ih ht htp (by rw [htr, hr]; rfl) (by omega)

/-- RDSTAT in phase HALT with no digest returns 0 (R225). -/
theorem step_rdstat_idle {s : State} {more : List HostWord} (hr : s.resetPin = false) (hseq : s.seq = 0x00)
    (hd : s.done = false) (hp : s.port = hostWordOf .rdstat :: more) :
    ∃ t, step s = .next t ∧ t.hres = some 0 ∧ t.port = more := by
  have hu : decodeSeq s.seq = .instr .halt := by rw [hseq]; exact decodeSeq_halt
  have hf : fetch s = .run .rdstat := fetch_of_host_turn hr hu hp rfl rfl (.inl hseq)
  have hstatus : statusWord s = 0 := by rw [statusWord, hd, busy_of_seq_zero hseq]; rfl
  refine ⟨(s.accept (some (statusWord s))).nextInstant, ?_, by simp [hstatus], by simp [hp]⟩
  rw [step_of_run hf]
  rfl

/-- Settles O59: the run up to the reset, the reset itself, and the RDSTAT after it. -/
theorem resetAbandonsARunningHash : Obligations.ResetAbandonsARunningHash := by
  intro m s k ops rest h hp hr hk
  obtain ⟨v, hrun, hv, hvp, hvr⟩ := h.run_until_reset hp hr hk
  have hreset : step v = .next v.takeReset.drawOrder := step_of_reset (by simp [State.resetPin_of_cons v hvr])
  have hport : v.takeReset.drawOrder.port = ops := by simp [State.portAfterReset_of_cons v hvr, hvp]
  refine ⟨⟨v, hrun, hv⟩, v.takeReset.drawOrder, ?_, rfl, rfl, rfl, rfl, fun _ => rfl, hport, by simp [hvr], ?_⟩
  · rw [run_add hrun 1, run_succ hreset, run_zero]
  · intro more hops hpin
    obtain ⟨u, hu, hres, hup⟩ := step_rdstat_idle hpin rfl rfl (hport.trans hops)
    refine ⟨u, ?_, hres, hup⟩
    rw [run_add hrun 2, run_succ hreset, run_succ hu, run_zero]

end Sys2Proof.Machine
end

section
/-!
PROOFS. The byte view and the blocks that LDBLK reads through it (R54, R105, R129): PMSG in the rules' own arithmetic on
natural numbers. Settles O7 and O22.
-/
namespace Sys2Proof.Machine

open Sys2Proof Sys2Proof.Spec

/-- Settles O7: below P the bytes are those of Pad(m), and P is the length of Pad(m). -/
theorem byteViewShowsThePaddedMessage : Obligations.ByteViewShowsThePaddedMessage := by
  intro m s hm
  refine ⟨fun a ha => pmsgByte_of_holds hm ha, fun a ha => pmsgByte_beyond ?_⟩
  rwa [hm.1, ← pad_length]

/-- Below P the model's byte of PMSG is the number PadByte of R105, in each of its four parts. -/
theorem pmsgValue_toNat {s : State} {a : Nat} (ha : a < paddedLength s.mlen) :
    (pmsgValue s.msg s.mlen a).toNat = padByte s a := by
  have hfield : 64 * nb s.mlen - 8 = s.mlen + 1 + zeroCount s.mlen := by
    rw [← paddedLength_sub, paddedLength_eq_blocks]; rfl
  rw [padByte, hfield]
  rcases lt_trichotomy a s.mlen with hlt | rfl | hgt
  · rw [if_pos hlt]
    cases hread : s.msg.read a with
    | none => simp [pmsgValue, pmsgByte_unwritten hlt hread]
    | some b => simp [pmsgValue_of_ok (pmsgByte_message hlt hread)]
  · simp [pmsgValue_of_ok (pmsgByte_marker s.msg s.mlen)]
  · rw [if_neg hgt.not_gt, if_neg hgt.ne']
    by_cases hz : a < s.mlen + 1 + zeroCount s.mlen
    · simp [pmsgValue_of_ok (pmsgByte_zero (msg := s.msg) hgt hz), hz]
    · rw [pmsgValue_of_ok (pmsgByte_length (not_lt.1 hz) ha), if_neg hz, byte64_toNat, bitLength]

/-- A word of PMSG that ends below P is the number its four bytes make (R54). -/
theorem pmsgWord_toNat {s : State} {a : Nat} (ha : a + 3 < paddedLength s.mlen) :
    (pmsgWord s.msg s.mlen a).toNat = le (padByte s) a := by
  rw [pmsgWord, le32_toNat, pmsgValue_toNat (by omega), pmsgValue_toNat (by omega), pmsgValue_toNat (by omega),
    pmsgValue_toNat ha, le]

/-- What LDBLK answers when the block can be read. -/
theorem exec_ldblk_of_block {s : State} {block : Vector Word 16} (h : pmsgBlock s.msg s.mlen s.blk = .ok block) :
    exec .ldblk s = .next (((s.setX block).setW s.h).setSeq 0x80) := by
  simp [exec, execLdblk, h]

/-- Settles O22: below NB the block lies below P, so its bytes can be read once those of the message are written. -/
theorem ldblkLoadsTheBlock : Obligations.LdblkLoadsTheBlock := by
  refine ⟨rfl, rfl, fun s hblk => ?_⟩
  have hbelow : ∀ j, j < 64 → 64 * s.blk + j < 64 * nb s.mlen := fun j hj => by omega
  have hP : paddedLength s.mlen = 64 * nb s.mlen := paddedLength_eq_blocks s.mlen
  refine ⟨hbelow, fun hwritten => ?_⟩
  have hblock := pmsgBlock_ok (msg := s.msg) fun j hj => (pmsgByte_ok_iff (hP ▸ hbelow j hj)).2 (hwritten j hj)
  -- The block under a name of its own, so that comparing states does not compute its words.
  generalize hx : Vector.ofFn _ = block at hblock
  refine ⟨_, exec_ldblk_of_block hblock, fun k => ?_, rfl, rfl, rfl, rfl, rfl, rfl, fun _ => rfl,
    rfl, rfl, rfl, rfl, rfl⟩
  have hend : 64 * s.blk + 4 * k.val + 3 < paddedLength s.mlen := by omega
  simp [← hx, pmsgWord_toNat hend]

end Sys2Proof.Machine
end

section
/-!
PROOFS. A finite capacity of MSG (R67): it changes an accepted operation that exceeds it, and nothing else. Settles O35.
-/
namespace Sys2Proof.Machine

open Sys2Proof

@[simp] theorem withinCapacity_none (n : Nat) : withinCapacity none n = true := rfl
@[simp] theorem withinCapacity_some (c n : Nat) : withinCapacity (some c) n = decide (n ≤ c) := rfl

section
variable {cap cap' : Option Nat} {a : Nat} {b : Byte} {s : State}

theorem wrmsgWithin_refused (hacc : accepted (.wrmsg a b) s = true) (hcap : withinCapacity cap (a + 1) = false) :
    wrmsgWithin cap a b s = .refused .beyondCapacity := by
  simp [wrmsgWithin, hacc, hcap]

theorem startWithin_refused (hacc : accepted .start s = true) (hcap : withinCapacity cap s.mlen = false) :
    startWithin cap s = .refused .beyondCapacity := by
  simp [startWithin, hacc, hcap]

/-- A capacity is looked at only when the operation is accepted (log 9). -/
theorem wrmsgWithin_congr
    (h : accepted (.wrmsg a b) s = true → withinCapacity cap (a + 1) = withinCapacity cap' (a + 1)) :
    wrmsgWithin cap a b s = wrmsgWithin cap' a b s := by
  unfold wrmsgWithin
  split
  next hacc => rw [h hacc]
  next => rfl

theorem startWithin_congr
    (h : accepted .start s = true → withinCapacity cap s.mlen = withinCapacity cap' s.mlen) :
    startWithin cap s = startWithin cap' s := by
  unfold startWithin
  split
  next hacc => rw [h hacc]
  next => rfl

end

/-- Settles O35: WRMSG and START are accepted exactly in phase HALT, and the model's own capacity is unbounded. -/
theorem finiteCapacityRefuses : Obligations.FiniteCapacityRefuses := by
  intro c a b s
  have hwrmsg : accepted (.wrmsg a b) s = decide (s.seq = 0x00) := rfl
  have hstart : accepted .start s = decide (s.seq = 0x00) := rfl
  refine ⟨fun hseq hc => ?_, fun h => ?_, fun hseq hc => ?_, fun h => ?_⟩
  · exact wrmsgWithin_refused (by simp [hwrmsg, hseq]) (by simp; omega)
  · refine wrmsgWithin_congr fun hacc => ?_
    have hseq : s.seq = 0x00 := by simpa [hwrmsg] using hacc
    have hfits : a + 1 ≤ c := h.resolve_right (absurd hseq)
    simp [Config.msgBytes, hfits]
  · exact startWithin_refused (by simp [hstart, hseq]) (by simp; omega)
  · refine startWithin_congr fun hacc => ?_
    have hseq : s.seq = 0x00 := by simpa [hstart] using hacc
    have hfits : s.mlen ≤ c := h.resolve_right (absurd hseq)
    simp [Config.msgBytes, hfits]

end Sys2Proof.Machine
end

section
/-!
PROOFS. The message while it is hashed (R51, R262): what writes it runs in phase HALT only. Settles O47.
-/
namespace Sys2Proof.Machine

open Sys2Proof

/-- A host operation that is accepted in phase HALT only (R222 to R224) is performed there only. -/
theorem seq_eq_zero_of_fetch_run {s : State} {i : Instr} (hf : fetch s = .run i) (hi : i.agent = .host)
    (hacc : accepted i s = decide (s.seq = 0x00)) : s.seq = 0x00 := by
  obtain ⟨-, u, hu, rfl | ⟨w, rest, -, -, haccepted, -⟩⟩ := fetch_run hf
  · rw [agent_of_decodeSeq hu] at hi
    cases hi
  · simpa [hacc] using haccepted

/-- Settles O47: by the list of R20 only WRLEN writes MLEN and only WRMSG writes MSG, and neither runs outside HALT. -/
theorem messageIsImmutableWhileHashed : Obligations.MessageIsImmutableWhileHashed := by
  intro s t hseq hr h
  rcases step_next h with ⟨hpin, -⟩ | ⟨-, i, v, hf, hv, rfl⟩
  · simp [hr] at hpin
  obtain ⟨-, -, -, -, -, hmlen, -, hmsg, -⟩ := onlyTheListedOperationsWrite i s v hv
  constructor
  · by_contra hne
    obtain ⟨len, rfl⟩ := hmlen hne
    exact hseq (seq_eq_zero_of_fetch_run hf rfl rfl)
  · intro a
    by_contra hne
    obtain ⟨b, rfl⟩ := hmsg a hne
    exact hseq (seq_eq_zero_of_fetch_run hf rfl rfl)

end Sys2Proof.Machine
end

section
/-!
PROOFS. The two ways of reading the digest (R66, R216): RDH delivers a word, RDDIG its bytes. Settles O58.
-/
namespace Sys2Proof.Machine

open Sys2Proof

theorem exec_rdh_done {s : State} {j : BitVec 4} (hd : s.done = true) (hj : j.toNat < 4) :
    exec (.rdh j) s = .next (s.accept (some s.h[j.toNat])) := by
  simp [exec, execRdh, accepted, hd, hj]

theorem exec_rddig_done {s : State} (j : BitVec 4) (hd : s.done = true) :
    exec (.rddig j) s = .next (s.accept (some ((digByte s.h j.toFin).zeroExtend 32))) := by
  simp [exec, execRddig, accepted, hd]

/-- Byte `4 i + k` of the digest is byte `k` of word `i` (R66); for `i < 4` the index of RDDIG does not wrap. -/
theorem digByte_of_index {h : Vector Word 4} {i j : BitVec 4} {k : Nat} (hi : i.toNat < 4) (hk : k < 4)
    (hj : j.toNat = 4 * i.toNat + k) : digByte h j.toFin = byte32 h[i.toNat] k := by
  have hword : j.toNat / 4 = i.toNat := by omega
  have hbyte : j.toNat % 4 = k := by omega
  simp [digByte, hword, hbyte]

/-- Settles O58: a word is the number that its four bytes make. -/
theorem wordAndByteReadsAgree : Obligations.WordAndByteReadsAgree := by
  intro s i hd hi
  refine ⟨_, _, _, _, _, _, _, _, _, _, exec_rdh_done hd hi, rfl, exec_rddig_done _ hd, rfl, exec_rddig_done _ hd, rfl,
    exec_rddig_done _ hd, rfl, exec_rddig_done _ hd, rfl, ?_⟩
  rw [digByte_of_index (k := 0) hi (by omega) (by bv_omega), digByte_of_index (k := 1) hi (by omega) (by bv_omega),
    digByte_of_index (k := 2) hi (by omega) (by bv_omega), digByte_of_index (k := 3) hi (by omega) (by bv_omega)]
  simp only [BitVec.truncate_eq_setWidth, BitVec.toNat_setWidth_of_le (show 8 ≤ 32 by decide), ← le32_toNat,
    le32_byte32]

end Sys2Proof.Machine
end

section
/-!
PROOFS. Decoding and encoding against each other (R82 to R86, R92): which codes decode and to what, and that each code
has one meaning. Settles O11, O12, O13 and O10.
-/
namespace Sys2Proof.Machine

open Sys2Proof

/-- The code of a step, from the table of R83, is that of the formula of R82. -/
theorem encode_stepInstr (r : Fin 3) (n : Fin 16) : encode (stepInstr r n) = .seq (seqOfStep r n) := by
  revert r n; decide

theorem decodeSeq_seqOfStep (r : Fin 3) (n : Fin 16) : decodeSeq (seqOfStep r n) = .instr (stepInstr r n) := by
  revert r n; decide

theorem stepInstr_wellFormed (r : Fin 3) (n : Fin 16) : (stepInstr r n).wellFormed = true := by
  revert r n; decide

theorem decode_encode_sequencer {u : Instr} (hu : u.agent = .sequencer) : decode (encode u) = .instr u := by
  rcases sequencer_cases u hu with rfl | rfl | rfl | ⟨r, n, rfl⟩
  · rfl
  · rfl
  · rfl
  · rw [encode_stepInstr]
    exact decodeSeq_seqOfStep r n

theorem decode_encode_host {i : Instr} (hi : i.agent = .host) (hwf : i.wellFormed = true) :
    decode (encode i) = .instr i := by
  cases i
  case rdh j => exact if_pos (of_decide_eq_true hwf)
  case nop => rfl
  case wrlen => rfl
  case wrmsg => rfl
  case start => rfl
  case rdstat => rfl
  case rddig => rfl
  all_goals cases hi

/-- Settles O11: the codes of the sequencer by its four kinds of micro-operation, those of the host by their ports. -/
theorem decodeOfEncode : Obligations.DecodeOfEncode := by
  intro i hwf
  cases hi : i.agent
  case sequencer => exact decode_encode_sequencer hi
  case host => exact decode_encode_host hi hwf

/-- SEQ as its three fields make it up (R81). -/
theorem seq_toNat_fields (b : BitVec 8) :
    b.toNat = 64 * (seqPhase b).toNat + 16 * (seqRound b).toNat + (seqIndex b).toNat := by
  have hb : b.toNat < 256 := b.isLt
  simp only [seqPhase, seqRound, seqIndex, BitVec.extractLsb'_toNat, Nat.shiftRight_eq_div_pow]
  omega

/-- SEQ with both lower fields zero is its phase (R81). -/
theorem seq_eq_of_phase {b : BitVec 8} {p : Nat} (hp : (seqPhase b).toNat = p) (hl : b.extractLsb' 0 6 = 0) :
    b = BitVec.ofNat 8 (64 * p) := by
  have hb : b.toNat < 256 := b.isLt
  have hlow : (b.extractLsb' 0 6).toNat = 0 := by rw [hl]; rfl
  apply BitVec.eq_of_toNat_eq
  simp only [seqPhase, BitVec.extractLsb'_toNat, Nat.shiftRight_eq_div_pow, BitVec.toNat_ofNat] at hp hlow ⊢
  omega

/-- The codes of the 51 micro-operations (R82): every SEQ value that decodes, and to what. -/
theorem decodeSeq_eq_instr {b : BitVec 8} {u : Instr} (h : decodeSeq b = .instr u) :
    (b = 0x00 ∧ u = .halt) ∨ (b = 0x40 ∧ u = .ldblk) ∨ (b = 0xC0 ∧ u = .feed) ∨
      ∃ r n, b = seqOfStep r n ∧ u = stepInstr r n := by
  unfold decodeSeq at h
  split at h
  next hp =>
    split at h <;> cases h
    exact .inl ⟨seq_eq_of_phase hp ‹_›, rfl⟩
  next hp =>
    split at h <;> cases h
    exact .inr (.inl ⟨seq_eq_of_phase hp ‹_›, rfl⟩)
  next hp =>
    split at h <;> cases h
    refine .inr (.inr (.inr ⟨_, _, ?_, rfl⟩))
    have hfields := seq_toNat_fields b
    apply BitVec.eq_of_toNat_eq
    simp only [seqOfStep, BitVec.toNat_ofNat, BitVec.val_toFin]
    omega
  next hne0 hne1 hne2 =>
    split at h <;> cases h
    have hlt := (seqPhase b).isLt
    simp only [imp_false] at hne0 hne1 hne2
    exact .inr (.inr (.inl ⟨seq_eq_of_phase (p := 3) (by omega) ‹_›, rfl⟩))

/-- The one reason for which a SEQ value is reserved (R86 (a)). -/
theorem eq_seq_of_decodeSeq_reserved {b : BitVec 8} {why : Reserved} (h : decodeSeq b = .reserved why) :
    why = .seq := by
  unfold decodeSeq at h
  repeat' split at h
  all_goals cases h <;> rfl

theorem legalSeq_iff {b : BitVec 8} : legalSeq b = true ↔ ∃ u, decodeSeq b = .instr u := by
  cases h : decodeSeq b <;> simp [legalSeq, h, Decoded.toOption]

theorem legalSeq_eq_false_iff {b : BitVec 8} : legalSeq b = false ↔ ∃ why, decodeSeq b = .reserved why := by
  cases h : decodeSeq b <;> simp [legalSeq, h, Decoded.toOption]

/-- The 51 legal values of SEQ as ranges (R25, R82). -/
theorem legalSeq_iff_range {b : BitVec 8} :
    legalSeq b = true ↔ b.toNat = 0x00 ∨ b.toNat = 0x40 ∨ b.toNat = 0xC0 ∨ (0x80 ≤ b.toNat ∧ b.toNat < 0xB0) := by
  constructor
  · intro h
    obtain ⟨u, hu⟩ := legalSeq_iff.1 h
    rcases decodeSeq_eq_instr hu with ⟨rfl, -⟩ | ⟨rfl, -⟩ | ⟨rfl, -⟩ | ⟨r, n, rfl, -⟩
    · simp
    · simp
    · simp
    · simp only [seqOfStep, BitVec.toNat_ofNat]
      omega
  · rintro (h | h | h | ⟨hlo, hhi⟩)
    · rw [BitVec.eq_of_toNat_eq (y := 0x00) h]; exact legalSeq_halt
    · rw [BitVec.eq_of_toNat_eq (y := 0x40) h]; exact legalSeq_ldblk
    · rw [BitVec.eq_of_toNat_eq (y := 0xC0) h]; rfl
    · have hb : b = BitVec.ofNat 8 (0x80 + (b.toNat - 0x80)) := by
        rw [Nat.add_sub_cancel' hlo, BitVec.ofNat_toNat, BitVec.setWidth_eq]
      rw [hb]
      exact legalSeq_of_decodeSeq (decodeSeq_step (by omega))

/-- The codes of the host (R85, R86 (b)): what each value of HOP decodes to. -/
theorem decodeHost_cases (w : HostWord) :
    (w.hop = 0 ∧ decodeHost w = .instr .nop) ∨
    (w.hop = 1 ∧ decodeHost w = .instr (.wrlen w.hlen)) ∨
    (w.hop = 2 ∧ decodeHost w = .instr (.wrmsg w.haddr w.hbyte)) ∨
    (w.hop = 3 ∧ decodeHost w = .instr .start) ∨
    (w.hop = 4 ∧ decodeHost w = .instr .rdstat) ∨
    (w.hop = 5 ∧ w.hidx.toNat < 4 ∧ decodeHost w = .instr (.rdh w.hidx)) ∨
    (w.hop = 5 ∧ 4 ≤ w.hidx.toNat ∧ decodeHost w = .reserved .hidx) ∨
    (w.hop = 6 ∧ decodeHost w = .instr (.rddig w.hidx)) ∨
    (w.hop = 7 ∧ decodeHost w = .reserved .hop) := by
  obtain ⟨hop, hlen, haddr, hbyte, hidx⟩ := w
  have hhop : ∀ k : BitVec 3, k = 0 ∨ k = 1 ∨ k = 2 ∨ k = 3 ∨ k = 4 ∨ k = 5 ∨ k = 6 ∨ k = 7 := by decide
  rcases hhop hop with rfl | rfl | rfl | rfl | rfl | rfl | rfl | rfl
  · simp [decodeHost]
  · simp [decodeHost]
  · simp [decodeHost]
  · simp [decodeHost]
  · simp [decodeHost]
  · by_cases hj : hidx.toNat < 4
    · simp [decodeHost, hj]
    · simp [decodeHost, hj, not_lt.1 hj]
  · simp [decodeHost]
  · simp [decodeHost]

/-- A host word that decodes is the code of what it decodes to, up to the ports not used (R84). -/
theorem encode_of_decodeHost {w : HostWord} {i : Instr} (h : decodeHost w = .instr i) :
    i.wellFormed = true ∧ encode i = .host
      { hop := w.hop, hlen := if w.hop = 1 then w.hlen else 0, haddr := if w.hop = 2 then w.haddr else 0,
        hbyte := if w.hop = 2 then w.hbyte else 0, hidx := if w.hop = 5 ∨ w.hop = 6 then w.hidx else 0 } := by
  rcases decodeHost_cases w with ⟨hop, hd⟩ | ⟨hop, hd⟩ | ⟨hop, hd⟩ | ⟨hop, hd⟩ | ⟨hop, hd⟩ | ⟨hop, hj, hd⟩ |
    ⟨hop, -, hd⟩ | ⟨hop, hd⟩ | ⟨hop, hd⟩ <;> cases hd.symm.trans h
  all_goals simp [Instr.wellFormed, encode, hostCode, *]

/-- Settles O12: each code that decodes, held against the table of codes. -/
theorem encodeOfDecoded : Obligations.EncodeOfDecoded := by
  refine ⟨fun b i h => ?_, fun w i => encode_of_decodeHost⟩
  rcases decodeSeq_eq_instr h with ⟨rfl, rfl⟩ | ⟨rfl, rfl⟩ | ⟨rfl, rfl⟩ | ⟨r, n, rfl, rfl⟩
  · exact ⟨rfl, rfl⟩
  · exact ⟨rfl, rfl⟩
  · exact ⟨rfl, rfl⟩
  · exact ⟨encode_stepInstr r n, stepInstr_wellFormed r n⟩

/-- Settles O13: the reserved values of SEQ are those outside the legal ranges, those of the host in the list of HOP. -/
theorem reservedCodesAreExactly : Obligations.ReservedCodesAreExactly := by
  constructor
  · intro b
    have hb : b.toNat < 256 := b.isLt
    refine legalSeq_eq_false_iff.symm.trans ?_
    rw [← Bool.not_eq_true, legalSeq_iff_range]
    omega
  · intro w
    rcases decodeHost_cases w with ⟨hop, hd⟩ | ⟨hop, hd⟩ | ⟨hop, hd⟩ | ⟨hop, hd⟩ | ⟨hop, hd⟩ | ⟨hop, hj, hd⟩ |
      ⟨hop, hj, hd⟩ | ⟨hop, hd⟩ | ⟨hop, hd⟩
    all_goals simp [decode, *]

/-- Settles O10: the decoder evaluated on the twelve listed words. -/
theorem listedCodesDecode : Obligations.ListedCodesDecode := by
  unfold Obligations.ListedCodesDecode
  decide

end Sys2Proof.Machine
end

section
/-!
PROOFS. That well-formed host operations complete and what an accepted one leaves at the port and at HRES (R84, R220,
U13). Settles O34.
-/
namespace Sys2Proof.Machine

open Sys2Proof

/-- Whether an operation is accepted or held, it answers a next state. -/
theorem exists_next_of_accept_or_hold (c : Prop) [Decidable c] (t s : State) :
    ∃ v, (if c then .next t else hold s : Result) = .next v := by
  split
  · exact ⟨t, rfl⟩
  · exact ⟨s, rfl⟩

/-- The capacity of MSG is unbounded (D8), so a well-formed host operation never stops (R240). -/
theorem exec_host_total {i : Instr} (s : State) (hi : i.agent = .host) (hwf : i.wellFormed = true) :
    ∃ t, exec i s = .next t := by
  cases i
  case nop => exact ⟨_, rfl⟩
  case wrlen => exact exists_next_of_accept_or_hold ..
  case wrmsg => exact exists_next_of_accept_or_hold ..
  case start => exact exists_next_of_accept_or_hold ..
  case rdstat => exact ⟨_, rfl⟩
  case rdh j =>
    have hj : j.toNat < 4 := of_decide_eq_true hwf
    simp only [exec, execRdh, hj, ↓reduceDIte]
    exact exists_next_of_accept_or_hold ..
  case rddig => exact exists_next_of_accept_or_hold ..
  all_goals cases hi

/-- Which well-formed host operations return nothing (U13). -/
theorem hostResult_eq_none_iff {i : Instr} (s : State) (hi : i.agent = .host) (hwf : i.wellFormed = true) :
    hostResult i s = none ↔ i = .nop ∨ i = .start ∨ (∃ len, i = .wrlen len) ∨ ∃ a b, i = .wrmsg a b := by
  cases i
  case nop => simp [hostResult]
  case wrlen => simp [hostResult]
  case wrmsg => simp [hostResult]
  case start => simp [hostResult]
  case rdstat => simp [hostResult]
  case rdh j =>
    have hj : j.toNat < 4 := of_decide_eq_true hwf
    simp [hostResult, hj]
  case rddig => simp [hostResult]
  all_goals cases hi

/-- Settles O34: an accepted operation completes, and the host then sees its result and the rest of the port. -/
theorem acceptedOperationsLeaveThePort : Obligations.AcceptedOperationsLeaveThePort := by
  intro i s hwf hacc
  have hi := agent_of_accepted hacc
  obtain ⟨t, ht⟩ := exec_host_total s hi hwf
  rcases exec_host_observed hi ht with ⟨hheld, -⟩ | ⟨-, hres, hport⟩
  · simp [hacc] at hheld
  · exact ⟨t, ht, hport, by rw [hres, hostResult_eq_none_iff s hi hwf]⟩

end Sys2Proof.Machine
end

section
/-!
PROOFS. What a step is when the host moves, and when a reserved code stands in SEQ or at the port (R86, R220). Settles
O40 and O37.
-/
namespace Sys2Proof.Machine

open Sys2Proof

theorem step_of_refuse {s : State} {r : Refusal} (h : fetch s = .refuse r) : step s = .refused r := by
  simp [step, h]

theorem fetch_of_reserved_seq {s : State} (hr : s.resetPin = false) (hseq : legalSeq s.seq = false) :
    fetch s = .refuse .reservedSeq := by
  obtain ⟨why, hwhy⟩ := legalSeq_eq_false_iff.1 hseq
  obtain rfl := eq_seq_of_decodeSeq_reserved hwhy
  simp [fetch, hr, hwhy, refusalOf]

/-- With a legal SEQ a reserved operation at the port is refused, whichever agent could go (log 11). -/
theorem fetch_of_reserved_pending {s : State} {w : HostWord} {rest : List HostWord} {why : Reserved}
    (hr : s.resetPin = false) (hseq : legalSeq s.seq = true) (hp : s.port = w :: rest)
    (hw : decodeHost w = .reserved why) : fetch s = .refuse (refusalOf why) := by
  obtain ⟨u, hu⟩ := legalSeq_iff.1 hseq
  simp [fetch, hr, hu, hp, hw]

theorem decodeHost_reserved_hop {w : HostWord} (h : w.hop = 0b111) : decodeHost w = .reserved .hop := by
  simp [decodeHost, h]

theorem decodeHost_reserved_hidx {w : HostWord} (h : w.hop = 0b101) (hj : 4 ≤ w.hidx.toNat) :
    decodeHost w = .reserved .hidx := by
  simp [decodeHost, h, hj]

/-- Settles O40: a reserved code is fetched as its refusal, SEQ's before the port's. -/
theorem reservedCodesAreRefused : Obligations.ReservedCodesAreRefused := by
  intro s hr
  refine ⟨fun hseq => ?_, fun hseq w rest hp => ⟨fun hop => ?_, fun hop hj => ?_⟩⟩
  · exact step_of_refuse (fetch_of_reserved_seq hr hseq)
  · exact step_of_refuse (fetch_of_reserved_pending hr hseq hp (decodeHost_reserved_hop hop))
  · exact step_of_refuse (fetch_of_reserved_pending hr hseq hp (decodeHost_reserved_hidx hop hj))

/-- Settles O37: the host's operation is fetched. -/
theorem stepRunsTheHostOperation : Obligations.StepRunsTheHostOperation := by
  intro s i w rest hr hseq hp hi hacc hturn
  obtain ⟨u, hu⟩ := legalSeq_iff.1 hseq
  rw [step_of_run (fetch_of_host_turn hr hu hp hi hacc hturn)]
  cases exec i s <;> rfl

end Sys2Proof.Machine
end

section
/-!
PROOFS. Progress (R136, R240, R264): while the message that is hashed is written and the host issues nothing reserved,
every step answers a next state, and only a START over an unwritten message takes the premise away. Settles O44.
-/
namespace Sys2Proof.Machine

open Sys2Proof Sys2Proof.Spec

/-- With nothing reserved in SEQ or at the port, one of the agents moves. -/
theorem exists_fetch_run {s : State} (hr : s.resetPin = false) (hseq : legalSeq s.seq = true) (hport : s.PortLegal) :
    ∃ i, fetch s = .run i := by
  obtain ⟨u, hu⟩ := legalSeq_iff.1 hseq
  cases hp : s.port with
  | nil => exact ⟨u, fetch_of_idle_port hr hu hp⟩
  | cons w rest =>
    have hw := hport w (by simp [State.issues, hp])
    cases hi : decodeHost w with
    | instr i =>
      rw [fetch_of_pending hr hu hp hi]
      split
      · exact ⟨i, rfl⟩
      · exact ⟨u, rfl⟩
    | reserved why => simp [hi, Decoded.toOption] at hw

/-- A host operation that is performed is the pending one. -/
theorem pending_of_fetch_run {s : State} {i : Instr} (hf : fetch s = .run i) (hi : i.agent = .host) :
    ∃ w rest, s.port = w :: rest ∧ decodeHost w = .instr i := by
  obtain ⟨-, u, hu, rfl | ⟨w, rest, hp, hw, -⟩⟩ := fetch_run hf
  · rw [agent_of_decodeSeq hu] at hi; cases hi
  · exact ⟨w, rest, hp, hw⟩

/-- The micro-operation that is performed is the one SEQ selects. -/
theorem decodeSeq_of_fetch_run {s : State} {u : Instr} (hf : fetch s = .run u) (hu : u.agent = .sequencer) :
    decodeSeq s.seq = .instr u := by
  obtain ⟨-, v, hv, rfl | ⟨w, rest, -, -, hacc, -⟩⟩ := fetch_run hf
  · exact hv
  · rw [agent_of_accepted hacc] at hu; cases hu

/-- The micro-operation that SEQ selects stops only over an unwritten message (R264). -/
theorem exec_sequencer_total {s : State} {u : Instr} (hs : s.WellFormed) (hm : busy s = true → s.MessageWritten)
    (hd : decodeSeq s.seq = .instr u) : ∃ t, exec u s = .next t := by
  rcases sequencer_cases u (agent_of_decodeSeq hd) with rfl | rfl | rfl | ⟨r, n, rfl⟩
  · exact ⟨s, rfl⟩
  · have hb : busy s = true := busy_of_decodeSeq hd (by simp)
    obtain ⟨-, -, hblk, -⟩ := hs
    obtain ⟨-, -, hldblk⟩ := ldblkLoadsTheBlock
    obtain ⟨-, hload⟩ := hldblk s (hblk hb)
    obtain ⟨t, ht, -⟩ := hload fun j _ hj => hm hb _ hj
    exact ⟨t, ht⟩
  · exact ⟨_, exec_feed s⟩
  · exact ⟨_, exec_stepInstr r n s⟩

theorem exec_fetched_total {s : State} {i : Instr} (hs : s.WellFormed) (hm : busy s = true → s.MessageWritten)
    (hf : fetch s = .run i) : ∃ t, exec i s = .next t := by
  cases hi : i.agent
  case sequencer => exact exec_sequencer_total hs hm (decodeSeq_of_fetch_run hf hi)
  case host =>
    obtain ⟨w, rest, -, hw⟩ := pending_of_fetch_run hf hi
    exact exec_host_total s hi (encode_of_decodeHost hw).1

/-- An instruction adds nothing to what the host has still to issue (R220). -/
theorem exec_issues_sublist {i : Instr} {s t : State} (h : exec i s = .next t) : t.issues.Sublist s.issues := by
  have hport : t.port.Sublist s.port := by
    cases hi : i.agent
    case sequencer =>
      obtain ⟨-, -, -, -, -, -, -, -, hhost, -⟩ := onlyTheListedOperationsWrite i s t h
      by_cases hp : t.port = s.port
      · simp [hp]
      · simp [hhost (.inl hp)] at hi
    case host =>
      rcases exec_host_observed hi h with ⟨-, -, hp⟩ | ⟨-, -, hp⟩
      · simp [hp]
      · rw [hp]; exact List.tail_sublist _
  rw [State.issues, State.issues, exec_resets h]
  exact hport.append_right _

theorem nextInstant_issues (s : State) : s.nextInstant.issues = s.issues := by
  simp [State.issues]

/-- Nor does a reset: it brings operations that were to come with it, and drops the pending one (R270). -/
theorem takeReset_issues_sublist (s : State) : s.takeReset.issues.Sublist s.issues := by
  have htail : s.port.tail.Sublist s.port := List.tail_sublist _
  cases hr : s.resets with
  | nil => simpa [State.issues, State.portAfterReset, hr] using htail
  | cons r rest =>
    simp only [State.issues, State.takeReset_port, State.takeReset_resets, State.portAfterReset_of_cons s hr, hr,
      List.tail_cons, List.flatMap_cons, List.append_assoc]
    exact htail.append_right _

theorem State.PortLegal.of_sublist {s t : State} (h : s.PortLegal) (hsub : t.issues.Sublist s.issues) : t.PortLegal :=
  fun w hw => h w (hsub.subset hw)

/-- What writes the message runs in phase HALT and stays there, so an instruction that leaves a busy state leaves the
message as it is (R51, R262). -/
theorem message_same_of_busy {s t : State} {i : Instr} (hf : fetch s = .run i) (h : exec i s = .next t)
    (hb : busy t = true) : t.mlen = s.mlen ∧ MsgSame s t := by
  obtain ⟨-, -, -, hseq, -, hmlen, -, hmsg, -⟩ := onlyTheListedOperationsWrite i s t h
  have hidle : i.agent = .host → i ≠ .start → accepted i s ≠ decide (s.seq = 0x00) := by
    intro hi hstart hacc
    have h0 := seq_eq_zero_of_fetch_run hf hi hacc
    have hsame : t.seq = s.seq := by
      by_contra hne
      rcases hseq hne with rfl | hu
      · exact hstart rfl
      · simp [hi] at hu
    simp [busy_of_seq_zero (hsame.trans h0)] at hb
  constructor
  · by_contra hne
    obtain ⟨len, rfl⟩ := hmlen hne
    exact hidle rfl (by simp) rfl
  · intro a
    by_contra hne
    obtain ⟨b, rfl⟩ := hmsg a hne
    exact hidle rfl (by simp) rfl

/-- Only a START takes the machine out of phase HALT (R130). -/
theorem eq_start_of_leaves_halt {s t : State} {i : Instr} (hf : fetch s = .run i) (h : exec i s = .next t)
    (h0 : s.seq = 0x00) (hb : busy t = true) : i = .start := by
  have hne : t.seq ≠ s.seq := fun hsame => by simp [busy_of_seq_zero (hsame.trans h0)] at hb
  obtain ⟨-, -, -, hseq, -⟩ := onlyTheListedOperationsWrite i s t h
  refine (hseq hne).resolve_right fun hi => ?_
  have hd := decodeSeq_of_fetch_run hf hi
  rw [h0, decodeSeq_halt] at hd
  obtain rfl := Decoded.instr.inj hd
  cases h
  exact hne rfl

/-- After an instruction a busy machine has its message written, unless the instruction was a START over an unwritten
one. -/
theorem exec_keeps_message_written {s t : State} {i : Instr} (hs : s.WellFormed)
    (hm : busy s = true → s.MessageWritten) (hf : fetch s = .run i) (h : exec i s = .next t) :
    (busy t = true → t.MessageWritten) ∨
      (¬s.MessageWritten ∧ ∃ w rest, s.port = w :: rest ∧ decodeHost w = .instr .start) := by
  by_cases hw : s.MessageWritten
  · refine .inl fun hb a ha => ?_
    obtain ⟨hmlen, hmsg⟩ := message_same_of_busy hf h hb
    rw [hmsg a]
    exact hw a (hmlen ▸ ha)
  · by_cases hb : busy t = true
    · have h0 : s.seq = 0x00 := (busy_eq_false_iff hs.1).1 (Bool.eq_false_iff.2 fun hbusy => hw (hm hbusy))
      obtain rfl := eq_start_of_leaves_halt hf h h0 hb
      exact .inr ⟨hw, pending_of_fetch_run hf rfl⟩
    · exact .inl fun hbusy => absurd hbusy hb

/-- Settles O44: the reset input leaves an idle machine; otherwise an instruction is fetched, completes, and keeps the
premise or is that START. -/
theorem nothingStopsAWrittenMessage : Obligations.NothingStopsAWrittenMessage := by
  intro s hs hm hport
  cases hr : s.resetPin with
  | true =>
    have hstep := step_of_reset hr
    have hidle : busy s.takeReset.drawOrder = false := busy_of_seq_zero rfl
    exact ⟨_, hstep, stepKeepsWellFormed s _ hs hstep, hport.of_sublist (takeReset_issues_sublist s), by simp [hidle]⟩
  | false =>
    obtain ⟨i, hf⟩ := exists_fetch_run hr hs.1 hport
    obtain ⟨v, hv⟩ := exec_fetched_total hs hm hf
    have hstep : step s = .next v.nextInstant := by rw [step_of_run hf, hv]; rfl
    have hkept := exec_keeps_message_written hs hm hf hv
    refine ⟨_, hstep, stepKeepsWellFormed s _ hs hstep, hport.of_sublist ?_, hkept⟩
    rw [nextInstant_issues]
    exact exec_issues_sublist hv

end Sys2Proof.Machine
end

section
/-!
PROOFS. The padding rule (R100 to R104, R109, R111): the zero count, the padded length, the length field, and that a
padded message determines its message. Settles O5, O6, O8 and O9.
-/
namespace Sys2Proof.Machine

open Sys2Proof Sys2Proof.Spec

/-- The marker and the zeros leave eight bytes of the last block (R101). -/
theorem zeroCount_fills (len : Nat) : (len + 1 + zeroCount len) % 64 = 56 := by
  simp only [zeroCount]
  omega

/-- While the length field fits in the message's own last block (R101). -/
theorem zeroCount_of_le {len : Nat} (h : len % 64 ≤ 55) : zeroCount len = 55 - len % 64 := by
  simp only [zeroCount]
  omega

/-- When the length field needs another block (R101). -/
theorem zeroCount_of_ge {len : Nat} (h : 56 ≤ len % 64) : zeroCount len = 119 - len % 64 :=
  Nat.mod_eq_of_lt (by omega)

/-- Settles O5: two counts that fill alike differ by a multiple of 64, and z is below 64. -/
theorem zeroCountIsLeast : Obligations.ZeroCountIsLeast := by
  intro len
  have hfill := zeroCount_fills len
  have hlt := zeroCount_lt len
  exact ⟨hfill, fun z hz => by omega, by omega, rfl, by omega, zeroCount_of_le, zeroCount_of_ge⟩

/-- Settles O6: P is 64 NB, and between L + 9 and L + 72 since z is below 64. -/
theorem paddedLengthIsWholeBlocks : Obligations.PaddedLengthIsWholeBlocks := by
  intro m
  have hparts : (pad m).length = m.length + 1 + zeroCount m.length + 8 := pad_length m
  have hblocks : (pad m).length = 64 * numBlocks m.length := (pad_length m).trans (paddedLength_eq_blocks _)
  have hlt := zeroCount_lt m.length
  exact ⟨hparts, (pad_length m).symm, hblocks, by omega, rfl, by omega, by omega, by omega, by omega, by omega⟩

/-- A byte of the length field (R104). -/
theorem len64_getElem? (len : Nat) {j : Nat} (hj : j < 8) : (len64 len)[j]? = some (byte64 (bitLength len) j) := by
  simp [len64, hj]

/-- The length field is the last eight bytes of Pad(m) (R100). -/
theorem pad_getElem?_length_field (m : List Byte) (j : Nat) :
    (pad m)[(pad m).length - 8 + j]? = (len64 m.length)[j]? := by
  have hfront : (m ++ [0x80] ++ List.replicate (zeroCount m.length) (0x00 : Byte)).length =
      m.length + 1 + zeroCount m.length := by simp [Nat.add_assoc, Nat.add_comm 1]
  rw [pad_length, paddedLength_sub, ← hfront, pad, List.getElem?_append_right (Nat.le_add_right _ _),
    Nat.add_sub_cancel_left]

/-- The length in bits wraps at 2^61 bytes (R103). -/
theorem bitLength_wraps (len : Nat) : bitLength (len + 2 ^ 61) = bitLength len := by
  simp only [bitLength]
  omega

/-- Settles O8. -/
theorem lengthFieldIsLittleEndianAndWraps : Obligations.LengthFieldIsLittleEndianAndWraps := by
  refine ⟨fun m j hj => ?_, fun len => by rw [len64, bitLength_wraps, ← len64]⟩
  rw [pad_getElem?_length_field, len64_getElem? _ hj, Option.map_some, byte64_toNat, bitLength]

/-- Numbers with the same `n` lowest bytes agree modulo `2 ^ (8 * n)` (R9). -/
theorem mod_eq_of_byte64_eq {v v' n : Nat} (h : ∀ j, j < n → byte64 v j = byte64 v' j) :
    v % 2 ^ (8 * n) = v' % 2 ^ (8 * n) := by
  induction n with
  | zero => simp [Nat.mod_one]
  | succ n ih =>
    have hlower := ih fun j hj => h j (hj.trans n.lt_succ_self)
    have hbyte : v / 2 ^ (8 * n) % 2 ^ 8 = v' / 2 ^ (8 * n) % 2 ^ 8 := by
      simpa [byte64_toNat] using congrArg BitVec.toNat (h n n.lt_succ_self)
    rw [Nat.mul_succ, pow_add, Nat.mod_mul, Nat.mod_mul, hlower, hbyte]

/-- Below 2^61 bytes the length field determines the length (R103, R111). -/
theorem length_eq_of_len64_eq {len len' : Nat} (hlen : len < 2 ^ 61) (hlen' : len' < 2 ^ 61)
    (h : len64 len = len64 len') : len = len' := by
  have hbits : bitLength len % 2 ^ (8 * 8) = bitLength len' % 2 ^ (8 * 8) := mod_eq_of_byte64_eq fun j hj => by
    rw [← Option.some_inj, ← len64_getElem? len hj, ← len64_getElem? len' hj, h]
  simp only [bitLength] at hbits
  omega

/-- Settles O9: equal padded messages end in equal length fields, so the messages are as long as each other, and each
is what its padded message begins with. -/
theorem paddingIsInjective : Obligations.PaddingIsInjective := by
  intro m m' hm hm' h
  have hfield : len64 m.length = len64 m'.length :=
    (List.append_inj' h (by rw [len64_length, len64_length])).2
  have hlen : m.length = m'.length := length_eq_of_len64_eq hm hm' hfield
  simp only [pad, List.append_assoc] at h
  exact (List.append_inj h hlen).1

end Sys2Proof.Machine
end

section
/-!
PROOFS. When LDBLK stops (R105, R264): over a message byte that was never written, or beyond the padded message, and a
run stops with it. Settles O23.
-/
namespace Sys2Proof.Machine

open Sys2Proof Sys2Proof.Spec

/-- Below P a byte of PMSG faults only as an unwritten message byte (R264). -/
theorem pmsgByte_eq_error_iff {msg : Memory} {len a : Nat} {f : Fault} (hP : a < paddedLength len) :
    pmsgByte msg len a = .error f ↔ f = .unwrittenMessageByte ∧ a < len ∧ msg.read a = none := by
  by_cases hmissing : a < len ∧ msg.read a = none
  · rw [pmsgByte_unwritten hmissing.1 hmissing.2]
    simp [hmissing, eq_comm]
  · obtain ⟨b, hb⟩ := (pmsgByte_ok_iff (msg := msg) hP).2 fun ha =>
      Option.isSome_iff_ne_none.2 fun hread => hmissing ⟨ha, hread⟩
    simp [hb, hmissing]

/-- LDBLK faults as the read of its block does (R129, R264). -/
theorem exec_ldblk_fault_iff {s : State} {f : Fault} :
    exec .ldblk s = .fault f ↔ pmsgFault s.msg s.mlen (64 * s.blk) 64 = some f := by
  cases h : pmsgFault s.msg s.mlen (64 * s.blk) 64 <;> simp [exec, execLdblk, pmsgBlock, h]

/-- At NB and above the block begins at P or above it, where PadByte is not defined (R105, log 13). -/
theorem exec_ldblk_beyond {s : State} (h : nb s.mlen ≤ s.blk) : exec .ldblk s = .fault .beyondPaddedMessage := by
  have hP : paddedLength s.mlen = 64 * nb s.mlen := paddedLength_eq_blocks s.mlen
  rw [exec_ldblk_fault_iff, pmsgFault_eq_some]
  exact ⟨0, by omega, pmsgByte_beyond (by omega), by simp⟩

/-- Below NB LDBLK faults exactly over a message byte of its block that was never written (R264). -/
theorem exec_ldblk_unwritten_iff {s : State} (hblk : s.blk < nb s.mlen) :
    exec .ldblk s = .fault .unwrittenMessageByte ↔
      ∃ j, j < 64 ∧ 64 * s.blk + j < s.mlen ∧ s.msg.read (64 * s.blk + j) = none := by
  have hP : paddedLength s.mlen = 64 * nb s.mlen := paddedLength_eq_blocks s.mlen
  have hbelow : ∀ j, j < 64 → 64 * s.blk + j < paddedLength s.mlen := fun j hj => by omega
  rw [exec_ldblk_fault_iff]
  constructor
  · rw [pmsgFault_eq_some]
    rintro ⟨j, hj, hbyte, -⟩
    exact ⟨j, hj, ((pmsgByte_eq_error_iff (hbelow j hj)).1 hbyte).2⟩
  · rintro ⟨j, hj, hlen, hread⟩
    cases hfault : pmsgFault s.msg s.mlen (64 * s.blk) 64 with
    | none =>
      obtain ⟨b, hb⟩ := (pmsgFault_eq_none _ _).1 hfault j hj
      simp [pmsgByte_unwritten hlen hread] at hb
    | some f =>
      obtain ⟨i, hi, hbyte, -⟩ := (pmsgFault_eq_some _ _ f).1 hfault
      rw [((pmsgByte_eq_error_iff (hbelow i hi)).1 hbyte).1]

/-- A run whose first step faults ends in that fault at every length. -/
theorem run_of_fault {s : State} {f : Fault} (h : step s = .fault f) {k : Nat} (hk : 1 ≤ k) : run k s = .fault f := by
  obtain ⟨k, rfl⟩ := Nat.exists_eq_add_of_le' hk
  exact (core_run_succ k s).trans (by rw [h]; rfl)

/-- Settles O23: with an idle port the LDBLK that SEQ selects is the step, and its fault is the run's. -/
theorem ldblkStopsExactlyWhenAByteIsMissing : Obligations.LdblkStopsExactlyWhenAByteIsMissing := by
  intro s
  refine ⟨exec_ldblk_beyond, exec_ldblk_unwritten_iff, fun hr hp hseq hblk hmissing k hk => ?_⟩
  have hu : decodeSeq s.seq = .instr .ldblk := by rw [hseq]; rfl
  have hstep : step s = .fault .unwrittenMessageByte := by
    rw [step_of_run (fetch_of_idle_port hr hu hp), (exec_ldblk_unwritten_iff hblk).2 hmissing]
    rfl
  exact run_of_fault hstep hk

end Sys2Proof.Machine
end

section
/-!
PROOFS. Every step of a running hash (R134, R135, R236): the sequencer's micro-operation brings it forward, a host
operation that is accepted meanwhile only leaves the port. Settles O53.
-/
namespace Sys2Proof.Machine

open Sys2Proof

/-- A hash in progress is not in phase HALT (R25). -/
theorem State.Hashing.seq_ne_zero {m : List Byte} {s : State} (h : s.Hashing m) : s.seq ≠ 0x00 := by
  obtain ⟨-, -, -, -, hseq | ⟨n, hn, -, -, hseq⟩⟩ := h
  · rw [hseq]; decide
  · rw [hseq]; clear hseq; revert n; decide

theorem State.Hashing.done_eq_false {m : List Byte} {s : State} (h : s.Hashing m) : s.done = false := by
  obtain ⟨-, hd, -⟩ := h
  exact hd

/-- While the machine is busy and has no digest, an accepted operation (NOP or RDSTAT, R229) only leaves the port and
sets HRES. -/
theorem exec_accepted_of_busy {i : Instr} {s t : State} (hseq : s.seq ≠ 0x00) (hd : s.done = false)
    (hacc : accepted i s = true) (h : exec i s = .next t) : ∃ result, t = s.accept result := by
  rcases exec_host_next (agent_of_accepted hacc) h with ⟨hheld, -⟩ | ⟨-, ⟨rfl, rfl⟩ | ⟨len, rfl, rfl⟩ |
    ⟨a, b, rfl, rfl⟩ | ⟨rfl, rfl⟩ | ⟨rfl, rfl⟩ | ⟨j, hj, rfl, rfl⟩ | ⟨j, rfl, rfl⟩⟩
  · simp [hacc] at hheld
  · exact ⟨_, rfl⟩
  · exact absurd (of_decide_eq_true hacc) hseq
  · exact absurd (of_decide_eq_true hacc) hseq
  · exact absurd (of_decide_eq_true hacc) hseq
  · exact ⟨_, rfl⟩
  · exact absurd hd (by simpa [accepted] using hacc)
  · exact absurd hd (by simpa [accepted] using hacc)

/-- What one step, of whichever agent, makes of a hash in progress: it is still in progress or its digest is ready, and
either the end is nearer by one or the port is shorter by one. -/
def State.MovesTo (m : List Byte) (s t : State) : Prop :=
  (t.Hashing m ∨ (t.HasDigest m ∧ t.Holds m)) ∧
    ((t.remaining (numBlocks m.length) + 1 = s.remaining (numBlocks m.length) ∧ t.port = s.port) ∨
     (t.remaining (numBlocks m.length) = s.remaining (numBlocks m.length) ∧ ∃ w, s.port = w :: t.port))

theorem State.AdvancesTo.movesTo {m : List Byte} {s t : State} (h : s.AdvancesTo m t) : s.MovesTo m t := by
  obtain ⟨hnext, hless, hport⟩ := h
  exact ⟨hnext.imp_right fun ⟨hdigest, hm, _⟩ => ⟨hdigest, hm⟩, .inl ⟨hless, hport⟩⟩

/-- The instant that follows changes nothing that a hash in progress is made of. -/
theorem State.MovesTo.nextInstant {m : List Byte} {s t : State} (h : s.MovesTo m t) : s.MovesTo m t.nextInstant := h

/-- An accepted operation is one fewer at the port, and the hash is where it was (R236). -/
theorem State.Hashing.accept_movesTo {m : List Byte} {s : State} (h : s.Hashing m) {w : HostWord} {rest : List HostWord}
    (hp : s.port = w :: rest) (result : Option Word) : s.MovesTo m (s.accept result) :=
  ⟨.inl h, .inr ⟨rfl, w, by simp [hp]⟩⟩

/-- The instruction fetched in a hash in progress, whichever agent's, completes and moves the hash on. -/
theorem State.Hashing.exec_fetched {m : List Byte} {s : State} {i : Instr} (h : s.Hashing m) (hf : fetch s = .run i) :
    ∃ t, exec i s = .next t ∧ s.MovesTo m t := by
  obtain ⟨-, u, hu, rfl | ⟨w, rest, hp, hw, hacc, -⟩⟩ := fetch_run hf
  · obtain ⟨v, t, hv, ht, hadv⟩ := h.microOp
    obtain rfl : i = v := Decoded.instr.inj (hu.symm.trans hv)
    exact ⟨t, ht, hadv.movesTo⟩
  · obtain ⟨t, ht⟩ := exec_host_total s (agent_of_accepted hacc) (encode_of_decodeHost hw).1
    obtain ⟨result, rfl⟩ := exec_accepted_of_busy h.seq_ne_zero h.done_eq_false hacc ht
    exact ⟨_, ht, h.accept_movesTo hp result⟩

/-- Settles O53: an instruction is fetched, completes and moves the hash on, and so does the next instant. -/
theorem everyStepAdvancesTheHash : Obligations.EveryStepAdvancesTheHash := by
  intro m s h hr hlegal
  obtain ⟨u, -, hu, -⟩ := h.microOp
  obtain ⟨i, hf⟩ := exists_fetch_run hr (legalSeq_of_decodeSeq hu) hlegal
  obtain ⟨t, ht, hmoves⟩ := h.exec_fetched hf
  have hissues : t.nextInstant.issues.Sublist s.issues := by
    rw [nextInstant_issues]
    exact exec_issues_sublist ht
  refine ⟨t.nextInstant, ?_, hlegal.of_sublist hissues, by simp [exec_resets ht], hmoves.nextInstant⟩
  rw [step_of_run hf, ht]
  rfl

end Sys2Proof.Machine
end

section
/-!
PROOFS. Arithmetic on words (R120 to R125): addition and rotation as numbers, rotation and the mixing functions bit by
bit. Settles O1, O2 and O3.
-/
namespace Sys2Proof.Machine

open Sys2Proof Sys2Proof.Spec

theorem add32_toNat (a b : Word) : (add32 a b).toNat = (a.toNat + b.toNat) % 2 ^ 32 := BitVec.toNat_add a b

/-- Settles O1. -/
theorem additionWraps : Obligations.AdditionWraps := fun a b c =>
  ⟨add32_toNat a b, BitVec.add_comm a b, BitVec.add_assoc a b c⟩

/-- The rotation as a number (R121); the reduction modulo 2^32 takes the two shifts one by one. -/
theorem rotl32_toNat (v : Word) (c : Nat) : (rotl32 v c).toNat = rotl v.toNat c := by
  have hright : v.toNat >>> (32 - c) < 2 ^ 32 := (v >>> (32 - c)).isLt
  rw [rotl32, rotl, BitVec.toNat_or, BitVec.toNat_shiftLeft, BitVec.toNat_ushiftRight, Nat.or_mod_two_pow,
    Nat.mod_eq_of_lt hright]

/-- A bit that does not pass the upper end moves up by the count; one that does comes in again from below. -/
theorem rotl32_getLsbD (v : Word) {c j : Nat} (hc : c ≤ 31) (hj : j < 32) :
    (rotl32 v c).getLsbD ((j + c) % 32) = v.getLsbD j := by
  by_cases hwrap : j + c < 32
  · have hbeyond : v.getLsbD (32 - c + (j + c)) = false := BitVec.getLsbD_of_ge _ _ (by omega)
    simp [rotl32, Nat.mod_eq_of_lt hwrap, hwrap, hbeyond, BitVec.getLsbD_eq_getElem hj]
  · have hmod : (j + c) % 32 = j + c - 32 := by omega
    have hfrom : 32 - c + (j + c - 32) = j := by omega
    have hbelow : j + c - 32 < c := by omega
    simp [rotl32, hmod, hbelow, hfrom]

/-- Settles O2. -/
theorem rotationMovesEachBit : Obligations.RotationMovesEachBit := fun v c _ hc =>
  ⟨rotl32_toNat v c, fun _ hj => rotl32_getLsbD v hc hj⟩

theorem not32_toNat (x : Word) : (not32 x).toNat = 0xFFFFFFFF - x.toNat := BitVec.toNat_not

section
variable (x y z : Word) {j : Nat}

/-- F selects (R123). -/
theorem mixF_getLsbD (hj : j < 32) :
    (mixF x y z).getLsbD j = if x.getLsbD j then y.getLsbD j else z.getLsbD j := by
  have selection : ∀ a b c : Bool, (a && b || !a && c) = if a then b else c := by decide
  simp only [mixF, not32, BitVec.getLsbD_or, BitVec.getLsbD_and, BitVec.getLsbD_not, hj, decide_true, Bool.true_and,
    selection]

/-- G is the majority (R124). -/
theorem mixG_getLsbD : (mixG x y z).getLsbD j =
    decide (2 ≤ (x.getLsbD j).toNat + (y.getLsbD j).toNat + (z.getLsbD j).toNat) := by
  have majority : ∀ a b c : Bool, (a && b || a && c || b && c) = decide (2 ≤ a.toNat + b.toNat + c.toNat) := by
    decide
  simp only [mixG, BitVec.getLsbD_or, BitVec.getLsbD_and, majority]

/-- H is the parity (R125). -/
theorem mixH_getLsbD : (mixH x y z).getLsbD j =
    decide (((x.getLsbD j).toNat + (y.getLsbD j).toNat + (z.getLsbD j).toNat) % 2 = 1) := by
  have parity : ∀ a b c : Bool, ((a ^^ b) ^^ c) = decide ((a.toNat + b.toNat + c.toNat) % 2 = 1) := by decide
  simp only [mixH, BitVec.getLsbD_xor, parity]

end

/-- Settles O3. -/
theorem mixingActsBitByBit : Obligations.MixingActsBitByBit := fun x y z =>
  ⟨not32_toNat x, fun _ hj => ⟨mixF_getLsbD x y z hj, mixG_getLsbD x y z, mixH_getLsbD x y z⟩⟩

end Sys2Proof.Machine
end

section
/-!
PROOFS. The generic step (R126 to R128): its operands by the formulas, its value as a number, and what it leaves. Settles
O20.
-/
namespace Sys2Proof.Machine

open Sys2Proof Sys2Proof.Spec

/-- The destination of a step holds the new value (R128). -/
@[simp] theorem stepWork_getElem_dest (f : Word → Word → Word → Word) (o : StepOperands) (w : Vector Word 4)
    (x : Vector Word 16) : (stepWork f o w x)[o.dest] = stepValue f o w x :=
  Vector.getElem_set_self _

/-- The other three working registers are unchanged (R128). -/
theorem stepWork_getElem_of_ne (f : Word → Word → Word → Word) {o : StepOperands} {j : Fin 4} (hj : j ≠ o.dest)
    (w : Vector Word 4) (x : Vector Word 16) : (stepWork f o w x)[j] = w[j] :=
  Vector.getElem_set_ne _ _ fun h => hj (Fin.ext h.symm)

/-- The new value as a number: the four-term sum, rotated (R120, R121, R128). -/
theorem stepValue_toNat (f : Word → Word → Word → Word) (o : StepOperands) (w : Vector Word 4) (x : Vector Word 16) :
    (stepValue f o w x).toNat =
      rotl (sum4 w[o.dest].toNat (f w[o.x] w[o.y] w[o.z]).toNat x[o.word].toNat o.const.toNat) o.rot := by
  simp only [stepValue, rotl32_toNat, add32_toNat, sum4]

/-- `i = (-n) mod 4` (R127). -/
theorem destIndex_add (n : Fin 16) : ((destIndex n).val + n.val) % 4 = 0 := by
  revert n; decide

/-- SEQ after a step, as a number (R128). -/
theorem schedule_next_toNat (r : Fin 3) (n : Fin 16) :
    (schedule r n).next.toNat = if r.val = 2 ∧ n.val = 15 then 0xC0 else 0x80 + 16 * r.val + n.val + 1 := by
  revert r n; decide

/-- The rotate count as an entry of its round's list (R126). -/
theorem rotateCount_eq_getD (r : Fin 3) (n : Fin 16) : rotateCount r n = romS[r].toList.getD (n.val % 4) 0 := by
  revert r n; decide

/-- Settles O20: each step is the generic one, and the formulas of its operands are those of R126 round by round. -/
theorem stepsFollowTheGenericRule : Obligations.StepsFollowTheGenericRule := by
  intro r n s
  refine ⟨_, exec_stepInstr r n s, destIndex n, destIndex n + 1, destIndex n + 2, destIndex n + 3, wordIndex r n,
    destIndex_add n, Fin.val_add _ _, Fin.val_add _ _, Fin.val_add _ _, ?word, ?value,
    fun j hj => stepWork_getElem_of_ne (o := schedule r n) _ hj _ _, encode_stepInstr r n, schedule_next_toNat r n,
    rfl, rfl, rfl, rfl, rfl, fun _ => rfl, rfl, rfl, rfl, rfl, rfl⟩
  case word => revert r n; decide
  case value =>
    refine (congrArg BitVec.toNat (stepWork_getElem_dest ..)).trans ((stepValue_toNat ..).trans ?_)
    match r with
    | 0 => exact congrArg (rotl _) (rotateCount_eq_getD 0 n)
    | 1 => exact congrArg (rotl _) (rotateCount_eq_getD 1 n)
    | 2 => exact congrArg (rotl _) (rotateCount_eq_getD 2 n)

end Sys2Proof.Machine
end

section
/-!
PROOFS. Four consecutive steps of a round as assignments to rotating names (R138). Settles O21.
-/
namespace Sys2Proof.Machine

open Sys2Proof

/-- The destination of step `4 q + j` is that of step `j`: A, D, C, B in turn (R127). -/
theorem destIndex_of_quarter {q : Nat} (hq : q < 4) (j : Fin 4) :
    destIndex (Fin.ofNat 16 (4 * q + j)) = #v[0, 3, 2, 1][j] := by
  revert q j; decide

/-- The rotate count of step `4 q + j` is that of step `j` (R126). -/
theorem rotateCount_of_quarter (r : Fin 3) {q : Nat} (hq : q < 4) (j : Fin 4) :
    rotateCount r (Fin.ofNat 16 (4 * q + j)) = romS[r][j] := by
  revert r q j; decide

/-- What the generic step writes, in the terms of the printed form: the constant added to the message word first. -/
theorem stepWork_schedule (r : Fin 3) {n : Fin 16} {i : Fin 4} {c : Nat} (hi : destIndex n = i)
    (hc : rotateCount r n = c) (w : Vector Word 4) (x : Vector Word 16) :
    stepWork (mixOf r) (schedule r n) w x =
      w.set i (rotl32 (w[i] + mixOf r w[i + 1] w[i + 2] w[i + 3] + (x[wordIndex r n] + romK[r])) c) := by
  subst hi hc
  simp only [stepWork, stepValue, schedule, add32, BitVec.add_assoc]

/-- Settles O21. -/
theorem fourStepsAsRotatingNames : Obligations.FourStepsAsRotatingNames := by
  intro r q w x hq
  have hdest := destIndex_of_quarter hq
  have hrot := rotateCount_of_quarter r hq
  obtain ⟨a, b, c, d, rfl⟩ : ∃ a b c d, w = #v[a, b, c, d] :=
    ⟨w[0], w[1], w[2], w[3], by ext i hi; interval_cases i <;> rfl⟩
  intro f word a' d' c' b' after
  have step0 : after #v[a, b, c, d] 0 = #v[a', b, c, d] := stepWork_schedule r (hdest 0) (hrot 0) _ x
  have step1 : after #v[a', b, c, d] 1 = #v[a', b, c, d'] := stepWork_schedule r (hdest 1) (hrot 1) _ x
  have step2 : after #v[a', b, c, d'] 2 = #v[a', b, c', d'] := stepWork_schedule r (hdest 2) (hrot 2) _ x
  have step3 : after #v[a', b, c', d'] 3 = #v[a', b', c', d'] := stepWork_schedule r (hdest 3) (hrot 3) _ x
  rw [step0, step1, step2, step3]

end Sys2Proof.Machine
end

section
/-!
PROOFS. FEED and HALT (R130, R131), and that the control state after a micro-operation depends on the control state
before it alone (R133, R139). Settles O24, O25 and O50.
-/
namespace Sys2Proof.Machine

open Sys2Proof

/-- A lane of the feed-forward uses its own two registers only (R131). -/
theorem addLanes_getElem_toNat (h w : Vector Word 4) (i : Fin 4) :
    (addLanes h w)[i].toNat = (h[i].toNat + w[i].toNat) % 2 ^ 32 := by
  simp [addLanes, add32_toNat]

/-- Settles O24: the two ends of FEED, and what they have in common. -/
theorem feedAddsLanesAndMovesOn : Obligations.FeedAddsLanesAndMovesOn := by
  refine ⟨rfl, rfl, fun s => ⟨_, exec_feed s, ?_⟩⟩
  split
  next hmore =>
    exact ⟨addLanes_getElem_toNat s.h s.w, rfl, fun _ => ⟨rfl, rfl⟩, fun hlast => absurd hmore hlast.not_gt,
      rfl, rfl, rfl, fun _ => rfl, rfl, rfl, rfl, rfl, rfl⟩
  next hlast =>
    exact ⟨addLanes_getElem_toNat s.h s.w, rfl, fun hmore => absurd hmore hlast, fun _ => ⟨rfl, rfl⟩,
      rfl, rfl, rfl, fun _ => rfl, rfl, rfl, rfl, rfl, rfl⟩

/-- Settles O25: the reset input leaves SEQ = `0x00`, the sequencer's micro-operation there is HALT, and of the host's
operations START alone writes SEQ. -/
theorem haltWaitsForStart : Obligations.HaltWaitsForStart := by
  refine ⟨rfl, rfl, fun _ => rfl, fun s t h0 hstep hne => ?_⟩
  rcases step_next hstep with ⟨-, rfl⟩ | ⟨-, i, v, hf, hv, rfl⟩
  · exact absurd rfl hne
  obtain ⟨-, -, -, hseq, -⟩ := onlyTheListedOperationsWrite i s v hv
  have hchanged : v.seq ≠ s.seq := h0 ▸ hne
  rcases hseq hchanged with rfl | hi
  · exact pending_of_fetch_run hf rfl
  · have hd := decodeSeq_of_fetch_run hf hi
    rw [h0, decodeSeq_halt] at hd
    obtain rfl := Decoded.instr.inj hd
    cases hv
    exact absurd rfl hchanged

/-- Settles O50: of the four kinds of micro-operation only FEED chooses, and it chooses by BLK and MLEN. -/
theorem sequenceDependsOnLengthAlone : Obligations.SequenceDependsOnLengthAlone := by
  intro i s s' t t' hi hseq hblk hmlen hdone h h'
  rcases sequencer_cases i hi with rfl | rfl | rfl | ⟨r, n, rfl⟩
  · cases h; cases h'
    exact ⟨hseq, hblk, hmlen, hdone⟩
  · obtain ⟨_, -, rfl⟩ := exec_ldblk_next h
    obtain ⟨_, -, rfl⟩ := exec_ldblk_next h'
    exact ⟨rfl, hblk, hmlen, hdone⟩
  · rw [exec_feed] at h h'
    rw [← hblk, ← hmlen] at h'
    cases h; cases h'
    split
    · exact ⟨rfl, rfl, hmlen, hdone⟩
    · exact ⟨rfl, rfl, hmlen, rfl⟩
  · rw [exec_stepInstr] at h h'
    cases h; cases h'
    exact ⟨rfl, hblk, hmlen, hdone⟩

end Sys2Proof.Machine
end

section
/-!
PROOFS. The sequencer left to itself, with nothing pending and no reset to come: fifty micro-operations compress a block
(R128 to R132). Settles O51.
-/
namespace Sys2Proof.Machine

open Sys2Proof Sys2Proof.Spec

theorem State.NoResetFor.resetPin {k : Nat} {s : State} (h : s.NoResetFor (k + 1)) : s.resetPin = false := by
  cases hr : s.resets with
  | nil => exact s.resetPin_of_nil hr
  | cons r rest =>
    have hwait : k + 1 ≤ r.wait := h r (by simp [hr])
    have hlater : r.wait ≠ 0 := by omega
    simp [s.resetPin_of_cons hr, hlater]

/-- After one instant the next reset is one instant nearer. -/
theorem State.NoResetFor.of_awaitReset {k : Nat} {s t : State} (h : s.NoResetFor (k + 1))
    (ht : t.resets = awaitReset s.resets) : t.NoResetFor k := by
  cases hr : s.resets with
  | nil => simp [State.NoResetFor, ht, hr]
  | cons r rest =>
    have hwait : k + 1 ≤ r.wait := h r (by simp [hr])
    have hnearer : k ≤ r.wait - 1 := by omega
    simp [State.NoResetFor, ht, hr, hnearer]

/-- With nothing pending and no reset, a step is the micro-operation that SEQ selects, and then the next instant. -/
theorem step_of_idle_port {s t : State} {u : Instr} (hr : s.resetPin = false) (hp : s.port = [])
    (hu : decodeSeq s.seq = .instr u) (ht : exec u s = .next t) : step s = .next t.nextInstant := by
  rw [step_of_run (fetch_of_idle_port hr hu hp), ht]
  rfl

/-- `t` is in the rounds of the block that `s` began, `n` steps behind it: H and everything else that the steps leave
are as in `s`, and W is where `n` steps from H lead (R132). -/
structure State.InRounds (s : State) (block : Vector Word 16) (n : Nat) (t : State) : Prop where
  x : t.x = block
  w : t.w = workAfter s.h block n
  seq : t.seq = if n = 48 then 0xC0 else BitVec.ofNat 8 (0x80 + n)
  h : t.h = s.h
  blk : t.blk = s.blk
  mlen : t.mlen = s.mlen
  done : t.done = s.done
  msg : t.msg = s.msg
  port : t.port = s.port

/-- LDBLK begins the rounds of its block (R129). -/
theorem step_ldblk_inRounds {s : State} {block : Vector Word 16} {k : Nat} (hr : s.NoResetFor (k + 1))
    (hp : s.port = []) (hseq : s.seq = 0x40) (hblock : pmsgBlock s.msg s.mlen s.blk = .ok block) :
    ∃ t, step s = .next t ∧ s.InRounds block 0 t ∧ t.NoResetFor k :=
  ⟨_, step_of_idle_port hr.resetPin hp (by rw [hseq]; rfl) (exec_ldblk_of_block hblock),
    ⟨rfl, rfl, rfl, rfl, rfl, rfl, rfl, rfl, rfl⟩, hr.of_awaitReset rfl⟩

/-- A step of the rounds is the step with the next number (R128). -/
theorem State.InRounds.step {s t : State} {block : Vector Word 16} {n k : Nat} (h : s.InRounds block n t) (hn : n < 48)
    (hr : t.NoResetFor (k + 1)) (hp : s.port = []) :
    ∃ v, Machine.step t = .next v ∧ s.InRounds block (n + 1) v ∧ v.NoResetFor k := by
  have hu : decodeSeq t.seq = .instr (stepInstr (roundOf n) (indexOf n)) := by
    rw [h.seq, if_neg hn.ne, decodeSeq_step hn]
  refine ⟨_, step_of_idle_port hr.resetPin (h.port.trans hp) hu (exec_stepInstr _ _ _), ?_, hr.of_awaitReset rfl⟩
  exact { h with w := by simp [workAfter, h.w, h.x], seq := schedule_next hn }

/-- The first `n` steps of the rounds (R132, R133). -/
theorem State.InRounds.run {s t : State} {block : Vector Word 16} {n k : Nat} (h : s.InRounds block 0 t) (hn : n ≤ 48)
    (hr : t.NoResetFor (n + k)) (hp : s.port = []) :
    ∃ v, Spec.run n t = .next v ∧ s.InRounds block n v ∧ v.NoResetFor k := by
  induction n generalizing k with
  | zero => exact ⟨t, rfl, h, by simpa using hr⟩
  | succ n ih =>
    obtain ⟨v, hrun, hv, hvr⟩ := ih (k := k + 1) (by omega) (by rwa [Nat.add_assoc, Nat.add_comm 1 k] at hr)
    obtain ⟨v', hstep, hv', hvr'⟩ := hv.step hn hvr hp
    exact ⟨v', by rw [run_add hrun 1, run_succ hstep, run_zero], hv', hvr'⟩

/-- After the 48 steps FEED adds what they made of H onto H (R131, R132). -/
theorem State.InRounds.step_feed {s t : State} {block : Vector Word 16} (h : s.InRounds block 48 t)
    (hr : t.resetPin = false) (hp : s.port = []) :
    ∃ v, Machine.step t = .next v ∧ v.h = compress s.h block ∧ v.blk = s.blk + 1 ∧ v.mlen = s.mlen ∧
      v.msg = s.msg ∧ (s.blk + 1 < numBlocks s.mlen → v.seq = 0x40 ∧ v.done = s.done) ∧
      (numBlocks s.mlen ≤ s.blk + 1 → v.seq = 0x00 ∧ v.done = true) := by
  have hu : decodeSeq t.seq = .instr .feed := by rw [h.seq]; rfl
  refine ⟨_, step_of_idle_port hr (h.port.trans hp) hu (exec_feed t), ?_⟩
  have hfed : addLanes t.h t.w = compress s.h block := by rw [h.w, h.h, compress]
  rw [hfed, h.blk, h.mlen]
  split
  next hmore => exact ⟨rfl, rfl, h.mlen, h.msg, fun _ => ⟨rfl, h.done⟩, fun hlast => absurd hmore hlast.not_gt⟩
  next hlast => exact ⟨rfl, rfl, h.mlen, h.msg, fun hmore => absurd hmore hlast, fun _ => ⟨rfl, rfl⟩⟩

/-- Holding a message is a matter of MLEN and MSG alone (R51). -/
theorem State.Holds.congr {m : List Byte} {s t : State} (h : s.Holds m) (hmlen : t.mlen = s.mlen)
    (hmsg : t.msg = s.msg) : t.Holds m := by
  simpa [State.Holds, hmlen, hmsg] using h

/-- Settles O51: LDBLK, the 48 steps, FEED. -/
theorem fiftyMicroOperationsCompressABlock : Obligations.FiftyMicroOperationsCompressABlock := by
  intro m s hm hr hp hseq hb
  obtain ⟨t₀, hload, h₀, hr₀⟩ := step_ldblk_inRounds (k := 48 + 1) hr hp hseq (pmsgBlock_of_holds hm hb)
  obtain ⟨t₁, hrounds, h₁, hr₁⟩ := h₀.run le_rfl hr₀ hp
  obtain ⟨t, hfeed, hh, hblk, hmlen, hmsg, hmore, hlast⟩ := h₁.step_feed (State.NoResetFor.resetPin hr₁) hp
  have hrun : run 50 s = .next t := by
    rw [run_succ hload 49, run_add hrounds 1, run_succ hfeed, run_zero]
  rw [hm.1] at hmore hlast
  exact ⟨t, hrun, hh, hblk, hm.congr hmlen hmsg, hmore, fun hend => hlast hend.ge⟩

end Sys2Proof.Machine
end

section
/-!
PROOFS. From START to the digest (R134, R135, R224, R228): START begins the hash, and left to itself the sequencer
ends it after exactly 50 NB micro-operations. Settles O52 and O54.
-/
namespace Sys2Proof.Machine

open Sys2Proof Sys2Proof.Spec

/-- What START answers in phase HALT (R224). -/
theorem exec_start_of_halt {s : State} (h0 : s.seq = 0x00) :
    exec .start s = .next (((((s.setH romIV).setBlk 0).setDone false).setSeq 0x40).accept none) := by
  simp [exec, execStart, startWithin, accepted, h0, Config.msgBytes]

/-- Settles O52. -/
theorem startBeginsTheHash : Obligations.StartBeginsTheHash := by
  intro m s hm h0
  exact ⟨_, exec_start_of_halt h0, ⟨hm, rfl, Nat.succ_pos _, rfl, .inl rfl⟩, State.remaining_of_load _ rfl⟩

/-- While `k` micro-operations pass that are not the last the hash stays in progress, and `k` fewer remain (R135). -/
theorem State.Hashing.run {m : List Byte} {s : State} {k j : Nat} (h : s.Hashing m) (hp : s.port = [])
    (hr : s.NoResetFor (k + j)) (hk : k < s.remaining (numBlocks m.length)) :
    ∃ t, Spec.run k s = .next t ∧ t.Hashing m ∧ t.port = [] ∧ t.NoResetFor j ∧
      t.remaining (numBlocks m.length) + k = s.remaining (numBlocks m.length) := by
  induction k generalizing s with
  | zero => exact ⟨s, rfl, h, hp, by simpa using hr, rfl⟩
  | succ k ih =>
    have hr' : s.NoResetFor (k + j + 1) := by rwa [Nat.add_right_comm] at hr
    obtain ⟨v, hstep, hv, hvp, hvr, hvrem⟩ := h.step hp hr'.resetPin (by omega)
    obtain ⟨t, hrun, ht, htp, htr, htrem⟩ := ih hv hvp (hr'.of_awaitReset hvr) (by omega)
    exact ⟨t, by rw [run_succ hstep, hrun], ht, htp, htr, by omega⟩

/-- A hash in progress has its next micro-operation to go (R135). -/
theorem State.Hashing.remaining_pos {m : List Byte} {s : State} (h : s.Hashing m) :
    0 < s.remaining (numBlocks m.length) := by
  obtain ⟨_, _, _, _, _, hless, _⟩ := h.microOp
  omega

/-- The last micro-operation leaves the digest (R135). -/
theorem State.Hashing.last_step {m : List Byte} {s : State} (h : s.Hashing m) (hp : s.port = [])
    (hr : s.resetPin = false) (hrem : s.remaining (numBlocks m.length) = 1) :
    ∃ t, Machine.step s = .next t ∧ t.HasDigest m ∧ t.Holds m ∧ t.blk = numBlocks m.length ∧ t.port = [] := by
  obtain ⟨u, t, hu, ht, hnext, hless, hport⟩ := h.microOp
  refine ⟨t.nextInstant, step_of_idle_port hr hp hu ht, ?_⟩
  rcases hnext with hashing | ⟨hdigest, hm, hblk⟩
  · have hmore := hashing.remaining_pos
    omega
  · exact ⟨hdigest, hm, hblk, hport.trans hp⟩

/-- START alone at the port, in phase HALT with no reset: the hash is begun and nothing is pending any more (R224). -/
theorem step_start {m : List Byte} {s : State} {k : Nat} (hm : s.Holds m) (h0 : s.seq = 0x00)
    (hr : s.NoResetFor (k + 1)) (hp : s.port = [hostWordOf .start]) :
    ∃ t, step s = .next t ∧ t.Hashing m ∧ t.port = [] ∧ t.NoResetFor k ∧
      t.remaining (numBlocks m.length) = 50 * numBlocks m.length := by
  obtain ⟨t, ht, hashing, hrem⟩ := startBeginsTheHash m s hm h0
  have hu : decodeSeq s.seq = .instr .halt := by rw [h0]; exact decodeSeq_halt
  have hacc : accepted .start s = true := decide_eq_true h0
  have hf : fetch s = .run .start := fetch_of_host_turn hr.resetPin hu hp rfl hacc (.inl h0)
  have hstep : step s = .next t.nextInstant := by rw [step_of_run hf, ht]; rfl
  obtain rfl := Host.Outcome.next.inj (ht.symm.trans (exec_start_of_halt h0))
  exact ⟨_, hstep, hashing, by simp [hp], hr.of_awaitReset rfl, hrem⟩

/-- Settles O54: START, all micro-operations but the last, and the last. -/
theorem startDeliversTheHash : Obligations.StartDeliversTheHash := by
  intro m s hm h0 hr hp
  rw [Nat.add_comm] at hr
  obtain ⟨v, hstart, hv, hvp, hvr, hvrem⟩ := step_start hm h0 hr hp
  have hrun : ∀ k, run (1 + k) s = run k v := fun k => by rw [Nat.add_comm, run_succ hstart]
  constructor
  · obtain ⟨k, hk⟩ := Nat.exists_eq_add_of_le' (hvrem ▸ hv.remaining_pos)
    obtain ⟨u, hu, hashing, hup, hur, hurem⟩ := hv.run (k := k) (j := 1) hvp (hk ▸ hvr) (by omega)
    obtain ⟨t, ht, ⟨hdone, hseq, hh⟩, hheld, hblk, htp⟩ :=
      hashing.last_step hup (State.NoResetFor.resetPin hur) (by omega)
    refine ⟨t, ?_, hdone, hh, hseq, hblk, hheld, htp⟩
    rw [hrun, hk, run_add hu 1, run_succ ht, run_zero]
  · intro k hk
    obtain ⟨t, ht, hashing, -⟩ := hv.run (j := 50 * numBlocks m.length - k) hvp
      (by rwa [Nat.add_sub_cancel' hk.le]) (by omega)
    exact ⟨t, by rw [hrun, ht], hashing.done_eq_false⟩

end Sys2Proof.Machine
end

section
/-!
PROOFS. The rules of the steps of round 1 (R150 to R165), each from the generic step at its own index (R126 to R128).
Settles O14 and O15.
-/
namespace Sys2Proof.Machine

open Sys2Proof Sys2Proof.Spec

/-- The rule of any of the 48 steps, with its operands as the formulas compute them: what `runStep` writes and leaves,
between the code that selects the step and the micro-operation `u` that follows. -/
theorem stepRule_stepInstr (r : Fin 3) (n : Fin 16) {u : Instr} (hnext : decodeSeq (schedule r n).next = .instr u) :
    StepRule (stepInstr r n) (seqOfStep r n) (mixOf r) (schedule r n).dest (schedule r n).x (schedule r n).y
      (schedule r n).z (schedule r n).word (schedule r n).rot (schedule r n).const.toNat (schedule r n).next u := by
  refine ⟨decodeSeq_seqOfStep r n, encode_stepInstr r n, hnext, fun s => ⟨_, exec_stepInstr r n s, ?value, ?others,
    rfl, rfl, rfl, rfl, rfl, rfl, fun _ => rfl, rfl, rfl, rfl, rfl, rfl⟩⟩
  case value => exact (congrArg BitVec.toNat (stepWork_getElem_dest ..)).trans (stepValue_toNat ..)
  case others => exact fun j hj => stepWork_getElem_of_ne _ hj s.w s.x

/-- Settles O14: the operands that R150 to R157 list are those of the formulas at step indices 0 to 7. -/
theorem roundOneSteps0To7 : Obligations.RoundOneSteps0To7 :=
  ⟨stepRule_stepInstr 0 0 rfl, stepRule_stepInstr 0 1 rfl, stepRule_stepInstr 0 2 rfl, stepRule_stepInstr 0 3 rfl,
    stepRule_stepInstr 0 4 rfl, stepRule_stepInstr 0 5 rfl, stepRule_stepInstr 0 6 rfl, stepRule_stepInstr 0 7 rfl⟩

/-- Settles O15: the operands that R158 to R165 list are those of the formulas at step indices 8 to 15; FF.15 leads into
round 2. -/
theorem roundOneSteps8To15 : Obligations.RoundOneSteps8To15 :=
  ⟨stepRule_stepInstr 0 8 rfl, stepRule_stepInstr 0 9 rfl, stepRule_stepInstr 0 10 rfl, stepRule_stepInstr 0 11 rfl,
    stepRule_stepInstr 0 12 rfl, stepRule_stepInstr 0 13 rfl, stepRule_stepInstr 0 14 rfl,
    stepRule_stepInstr 0 15 rfl⟩

end Sys2Proof.Machine
end

section
/-!
PROOFS. The rules of the steps of round 2 (R170 to R185), each from the generic step at its own index (R126 to R128).
Settles O16 and O17.
-/
namespace Sys2Proof.Machine

open Sys2Proof Sys2Proof.Spec

/-- Settles O16: the operands that R170 to R177 list are those of the formulas at step indices 0 to 7. -/
theorem roundTwoSteps0To7 : Obligations.RoundTwoSteps0To7 :=
  ⟨stepRule_stepInstr 1 0 rfl, stepRule_stepInstr 1 1 rfl, stepRule_stepInstr 1 2 rfl, stepRule_stepInstr 1 3 rfl,
    stepRule_stepInstr 1 4 rfl, stepRule_stepInstr 1 5 rfl, stepRule_stepInstr 1 6 rfl, stepRule_stepInstr 1 7 rfl⟩

/-- Settles O17: the operands that R178 to R185 list are those of the formulas at step indices 8 to 15; GG.15 leads into
round 3. -/
theorem roundTwoSteps8To15 : Obligations.RoundTwoSteps8To15 :=
  ⟨stepRule_stepInstr 1 8 rfl, stepRule_stepInstr 1 9 rfl, stepRule_stepInstr 1 10 rfl, stepRule_stepInstr 1 11 rfl,
    stepRule_stepInstr 1 12 rfl, stepRule_stepInstr 1 13 rfl, stepRule_stepInstr 1 14 rfl,
    stepRule_stepInstr 1 15 rfl⟩

end Sys2Proof.Machine
end

section
/-!
PROOFS. The rules of the steps of round 3 (R190 to R205), each from the generic step at its own index (R126 to R128).
Settles O18 and O19.
-/
namespace Sys2Proof.Machine

open Sys2Proof Sys2Proof.Spec

/-- Settles O18: the operands that R190 to R197 list are those of the formulas at step indices 0 to 7. -/
theorem roundThreeSteps0To7 : Obligations.RoundThreeSteps0To7 :=
  ⟨stepRule_stepInstr 2 0 rfl, stepRule_stepInstr 2 1 rfl, stepRule_stepInstr 2 2 rfl, stepRule_stepInstr 2 3 rfl,
    stepRule_stepInstr 2 4 rfl, stepRule_stepInstr 2 5 rfl, stepRule_stepInstr 2 6 rfl, stepRule_stepInstr 2 7 rfl⟩

/-- Settles O19: the operands that R198 to R205 list are those of the formulas at step indices 8 to 15; HH.15 leads into
FEED. -/
theorem roundThreeSteps8To15 : Obligations.RoundThreeSteps8To15 :=
  ⟨stepRule_stepInstr 2 8 rfl, stepRule_stepInstr 2 9 rfl, stepRule_stepInstr 2 10 rfl, stepRule_stepInstr 2 11 rfl,
    stepRule_stepInstr 2 12 rfl, stepRule_stepInstr 2 13 rfl, stepRule_stepInstr 2 14 rfl,
    stepRule_stepInstr 2 15 rfl⟩

end Sys2Proof.Machine
end

section
/-!
PROOFS. The digest as bytes and as text, and its equality (R210 to R214): what stands at each place of either, and that
words, bytes and text determine each other. Settles O55, O56 and O57.
-/
namespace Sys2Proof.Machine

open Sys2Proof

/-! ## The bytes -/

@[simp] theorem digestBytes_length (h : Vector Word 4) : (digestBytes h).length = 16 := by
  rw [digestBytes, List.length_map, List.length_finRange]

@[simp] theorem digestBytes_getElem? (h : Vector Word 4) (j : Fin 16) :
    (digestBytes h)[j.val]? = some (digByte h j) := by
  simp [digestBytes]

theorem digByte_toNat (h : Vector Word 4) (j : Fin 16) :
    (digByte h j).toNat = h[j.val / 4].toNat / 2 ^ (8 * (j.val % 4)) % 256 :=
  byte32_toNat _ _

/-- Settles O55: byte j is the byte view of H at j, which is `byte32` of a word. -/
theorem digestBytesInStateOrder : Obligations.DigestBytesInStateOrder := fun h =>
  ⟨digestBytes_length h, fun j => by rw [digestBytes_getElem?, Option.map_some, digByte_toNat]⟩

/-! ## The text -/

theorem digits_getElem? {n : Nat} (hn : n < 16) : "0123456789abcdef".toList[n]? = some (hexDigit n) := by
  have hlength : n < "0123456789abcdef".toList.length := hn
  rw [hexDigit, List.getD_eq_getElem _ _ hlength, List.getElem?_eq_getElem hlength]

theorem hexDigit_injOn {m n : Nat} (hm : m < 16) (hn : n < 16) (hmn : hexDigit m = hexDigit n) : m = n := by
  have hnodup : "0123456789abcdef".toList.Nodup := by decide
  refine (List.getElem?_inj hm hnodup).mp ?_
  rw [digits_getElem? hm, digits_getElem? hn, hmn]

theorem highNibble_lt (b : Byte) : b.toNat / 16 < 16 := by
  have := b.isLt
  omega

theorem lowNibble_lt (b : Byte) : b.toNat % 16 < 16 := Nat.mod_lt _ (by decide)

theorem hexByte_injective : Function.Injective hexByte := by
  intro b c hbc
  obtain ⟨hhigh, hlow⟩ : hexDigit (b.toNat / 16) = hexDigit (c.toNat / 16) ∧
      hexDigit (b.toNat % 16) = hexDigit (c.toNat % 16) := by simpa [hexByte] using hbc
  have hdiv := hexDigit_injOn (highNibble_lt b) (highNibble_lt c) hhigh
  have hmod := hexDigit_injOn (lowNibble_lt b) (lowNibble_lt c) hlow
  exact BitVec.eq_of_toNat_eq (by omega)

theorem flatMap_hexByte_length (bs : List Byte) : (bs.flatMap hexByte).length = 2 * bs.length := by
  induction bs with
  | nil => rfl
  | cons b bs ih => simp [hexByte, ih]; omega

/-- Byte `j` of a list is written at the places `2 j` and `2 j + 1` of its text. -/
theorem flatMap_hexByte_getElem? {bs : List Byte} {j : Nat} {b : Byte} (hb : bs[j]? = some b) :
    (bs.flatMap hexByte)[2 * j]? = some (hexDigit (b.toNat / 16)) ∧
    (bs.flatMap hexByte)[2 * j + 1]? = some (hexDigit (b.toNat % 16)) := by
  induction bs generalizing j with
  | nil => simp at hb
  | cons c bs ih =>
    cases j with
    | zero =>
      obtain rfl : c = b := by simpa using hb
      exact ⟨rfl, rfl⟩
    | succ j => exact ih (by simpa using hb)

theorem flatMap_hexByte_injective : Function.Injective (List.flatMap hexByte) := by
  intro bs cs hbs
  induction bs generalizing cs with
  | nil => cases cs with
    | nil => rfl
    | cons c cs => simp [hexByte] at hbs
  | cons b bs ih => cases cs with
    | nil => simp [hexByte] at hbs
    | cons c cs =>
      rw [List.flatMap_cons, List.flatMap_cons] at hbs
      obtain ⟨hhead, htail⟩ := List.append_inj hbs rfl
      rw [hexByte_injective hhead, ih htail]

@[simp] theorem digestHex_toList (h : Vector Word 4) : (digestHex h).toList = digestHexChars h :=
  String.toList_ofList

/-- Settles O56: the text is the bytes' pairs of digits one after another, so byte j stands at 2 j. -/
theorem hexTextHighNibbleFirst : Obligations.HexTextHighNibbleFirst := by
  intro h
  refine ⟨?_, fun j => ?_⟩
  · rw [← String.length_toList, digestHex_toList, digestHexChars, flatMap_hexByte_length, digestBytes_length]
  · rw [digits_getElem? (highNibble_lt _), digits_getElem? (lowNibble_lt _)]
    exact flatMap_hexByte_getElem? (digestBytes_getElem? h j)

/-! ## Equality -/

theorem digestEq_iff_words (h h' : Vector Word 4) : digestEq h h' = true ↔ ∀ i : Fin 4, h[i] = h'[i] := by
  simp [digestEq]

theorem digestEq_iff_eq (h h' : Vector Word 4) : digestEq h h' = true ↔ h = h' := by
  rw [digestEq_iff_words]
  exact ⟨fun hw => Vector.ext fun i hi => hw ⟨i, hi⟩, fun heq _ => by rw [heq]⟩

theorem digByte_injective : Function.Injective digByte := by
  intro h h' hdig
  refine Vector.ext fun i hi => ?_
  have hbyte (k : Nat) (hk : k < 4) : byte32 h[i] k = byte32 h'[i] k := by
    have hindex (g : Vector Word 4) : digByte g ⟨4 * i + k, by omega⟩ = byte32 g[i] k :=
      digByte_of_index (i := .ofNatLT i (by omega)) (j := .ofNatLT (4 * i + k) (by omega)) hi hk rfl
    rw [← hindex h, ← hindex h', hdig]
  calc
    h[i] = le32 (byte32 h[i] 0) (byte32 h[i] 1) (byte32 h[i] 2) (byte32 h[i] 3) := (le32_byte32 _).symm
    _ = le32 (byte32 h'[i] 0) (byte32 h'[i] 1) (byte32 h'[i] 2) (byte32 h'[i] 3) := by
      rw [hbyte 0 (by decide), hbyte 1 (by decide), hbyte 2 (by decide), hbyte 3 (by decide)]
    _ = h'[i] := le32_byte32 _

theorem digestBytes_injective : Function.Injective digestBytes := by
  intro h h' hbytes
  refine digByte_injective (funext fun j => Option.some_injective _ ?_)
  rw [← digestBytes_getElem?, ← digestBytes_getElem?, hbytes]

theorem digestHex_injective : Function.Injective digestHex := fun _ _ htext =>
  digestBytes_injective (flatMap_hexByte_injective (String.ofList_injective htext))

/-- Settles O57: `DigestBytes` and `DigestHex` lose nothing of the words. -/
theorem digestEqualityIsOfWords : Obligations.DigestEqualityIsOfWords := fun h h' =>
  ⟨digestEq_iff_words h h', (digestEq_iff_eq h h').trans digestBytes_injective.eq_iff.symm,
    (digestEq_iff_eq h h').trans digestHex_injective.eq_iff.symm⟩

end Sys2Proof.Machine
end

section
/-!
PROOFS. The seven host operations one by one (R221 to R227): what an accepted one writes and returns, that a held one
changes nothing. Settles O26, O27, O28, O29, O30, O31 and O32.
-/
namespace Sys2Proof.Machine

open Sys2Proof

/-- An operation that the state does not accept is held: it changes nothing (R220, R229). -/
theorem exec_of_held {i : Instr} {s : State} (hi : i.agent = .host) (hwf : i.wellFormed = true)
    (hheld : accepted i s = false) : exec i s = .next s := by
  obtain ⟨t, ht⟩ := exec_host_total s hi hwf
  rcases exec_host_next hi ht with ⟨-, rfl⟩ | ⟨hacc, -⟩
  · exact ht
  · simp [hheld] at hacc

theorem exec_nop (s : State) : exec .nop s = .next (s.accept none) := rfl

theorem exec_rdstat (s : State) : exec .rdstat s = .next (s.accept (some (statusWord s))) := rfl

theorem exec_wrlen_of_halt {s : State} (len : Nat) (h0 : s.seq = 0x00) :
    exec (.wrlen len) s = .next ((s.setMlen len).accept none) := by
  simp [exec, execWrlen, accepted, h0]

theorem exec_wrmsg_of_halt {s : State} (a : Nat) (b : Byte) (h0 : s.seq = 0x00) :
    exec (.wrmsg a b) s = .next ((s.setMsg (s.msg.write a b)).accept none) := by
  simp [exec, execWrmsg, wrmsgWithin, accepted, h0, Config.msgBytes]

theorem exec_rdh_reserved {s : State} {j : BitVec 4} (hj : 4 ≤ j.toNat) :
    exec (.rdh j) s = .refused .reservedHidx :=
  dif_neg hj.not_gt

/-- Settles O26. -/
theorem nopWritesNothing : Obligations.NopWritesNothing :=
  ⟨rfl, fun s => ⟨rfl, _, exec_nop s, rfl, rfl, rfl, rfl, rfl, rfl, rfl, rfl, rfl, fun _ => rfl, rfl, rfl, rfl⟩⟩

/-- Settles O27. -/
theorem wrlenWritesTheLength : Obligations.WrlenWritesTheLength := by
  refine fun len s => ⟨⟨_, rfl, rfl, rfl⟩, fun h0 => ?_, fun hbusy => exec_of_held rfl rfl (decide_eq_false hbusy)⟩
  exact ⟨_, exec_wrlen_of_halt len h0, rfl, rfl, rfl, rfl, rfl, rfl, rfl, fun _ => rfl, rfl, rfl, rfl⟩

/-- Settles O28: of the bytes of MSG the one written reads as written, every other as before. -/
theorem wrmsgWritesOneByte : Obligations.WrmsgWritesOneByte := by
  refine fun a b s => ⟨⟨_, rfl, rfl, rfl, rfl⟩, fun h0 => ?_,
    fun hbusy => exec_of_held rfl rfl (decide_eq_false hbusy)⟩
  exact ⟨_, exec_wrmsg_of_halt a b h0, Memory.read_write_same s.msg a b,
    fun _ hne => Memory.read_write_other s.msg b hne, rfl, rfl, rfl, rfl, rfl, rfl, rfl, rfl, rfl, rfl⟩

/-- Settles O29: H is the constant of the ROM, whatever it was. -/
theorem startLoadsTheInitialValue : Obligations.StartLoadsTheInitialValue := by
  refine ⟨rfl, fun s => ⟨fun h0 => ?_, fun hbusy => exec_of_held rfl rfl (decide_eq_false hbusy)⟩⟩
  exact ⟨_, exec_start_of_halt h0, rfl, rfl, rfl, rfl, rfl, rfl, rfl, rfl, rfl, rfl, fun _ => rfl, rfl, rfl, rfl⟩

/-- BUSY on the number that SEQ is: its upper two bits are not zero (R29). -/
theorem busy_eq_false_iff_toNat (s : State) : busy s = false ↔ s.seq.toNat / 64 = 0 := by
  have hseq : s.seq.toNat < 256 := s.seq.isLt
  have hphase : (seqPhase s.seq).toNat = s.seq.toNat / 64 := by
    rw [seqPhase, BitVec.extractLsb'_toNat, Nat.shiftRight_eq_div_pow]
    omega
  rw [busy, decide_eq_false_iff_not, not_not, ← BitVec.toNat_inj, hphase]
  rfl

/-- The status as a number: BUSY counts 1, DONE counts 2 (R225). -/
theorem statusWord_toNat (s : State) : (statusWord s).toNat = (busy s).toNat + 2 * s.done.toNat := by
  rw [statusWord]
  cases busy s <;> cases s.done <;> rfl

/-- A well-formed state is not both busy and done (R29, R36). -/
theorem State.WellFormed.statusWord_lt {s : State} (h : s.WellFormed) : (statusWord s).toNat < 3 := by
  rw [statusWord_toNat]
  cases hb : busy s
  · cases s.done <;> decide
  · simp [h.done_of_busy hb]

/-- Settles O30: the status is the number that BUSY and DONE make. -/
theorem rdstatReturnsBusyAndDone : Obligations.RdstatReturnsBusyAndDone := by
  refine ⟨rfl, fun s => ⟨_, exec_rdstat s, ⟨_, rfl, ?_, State.WellFormed.statusWord_lt⟩,
    rfl, rfl, rfl, rfl, rfl, rfl, rfl, fun _ => rfl, rfl, rfl, rfl⟩⟩
  simp only [statusWord_toNat, ← busy_eq_false_iff_toNat]
  cases busy s <;> cases s.done <;> rfl

/-- Settles O31: an index below 4 is accepted or held by DONE, any other is reserved. -/
theorem rdhReturnsAWord : Obligations.RdhReturnsAWord := by
  refine fun j s => ⟨⟨_, rfl, rfl, rfl⟩, fun hj hd => ?_,
    fun hj hd => exec_of_held rfl (decide_eq_true hj) hd, exec_rdh_reserved⟩
  exact ⟨_, exec_rdh_done hd hj, rfl, rfl, rfl, rfl, rfl, rfl, rfl, rfl, fun _ => rfl, rfl, rfl, rfl⟩

/-- Settles O32: the byte is that of the digest, and a byte in a word has the upper bits zero. -/
theorem rddigReturnsAByte : Obligations.RddigReturnsAByte := by
  refine fun j s => ⟨⟨_, rfl, rfl, rfl⟩, fun hd => ?_, fun hd => exec_of_held rfl rfl hd⟩
  refine ⟨_, exec_rddig_done j hd, ⟨_, rfl, ?_⟩, rfl, rfl, rfl, rfl, rfl, rfl, rfl, fun _ => rfl, rfl, rfl, rfl⟩
  exact (BitVec.toNat_setWidth_of_le (by decide)).trans (digByte_toNat s.h j.toFin)

end Sys2Proof.Machine
end

section
/-!
PROOFS. The acceptance table (R229), and the digest read that is held for ever (R231). Settles O33 and O41.
-/
namespace Sys2Proof.Machine

open Sys2Proof Sys2Proof.Spec

/-- In a well-formed state DONE = 1 implies SEQ = `0x00`, so the reads of the digest, which the model accepts by DONE
alone (log 15), are accepted where the table says. -/
theorem acceptEntry_iff {s : State} (hs : s.WellFormed) (i : Instr) : AcceptEntry i s ↔ accepted i s = true := by
  obtain ⟨-, hdone, -, -⟩ := hs
  have hread : (s.seq = 0x00 ∧ s.done = true) ↔ s.done = true := and_iff_right_of_imp hdone
  have hwrite : s.seq = 0x00 ↔ decide (s.seq = 0x00) = true := decide_eq_true_iff.symm
  cases i
  case nop | rdstat => exact iff_of_true trivial rfl
  case wrlen | wrmsg | start => exact hwrite
  case rdh | rddig => exact hread
  all_goals exact iff_of_false not_false Bool.false_ne_true

/-- Settles O33. -/
theorem acceptanceTable : Obligations.AcceptanceTable := by
  intro i s hi hwf hs
  rw [acceptEntry_iff hs]
  constructor
  · intro hacc
    obtain ⟨t, ht, hport, -⟩ := acceptedOperationsLeaveThePort i s hwf hacc
    exact ⟨t, ht, hport⟩
  · intro hheld
    exact exec_of_held hi hwf (by simpa using hheld)

/-- The read of the digest that a stuck state has pending is not accepted. -/
theorem State.Stuck.pending {s : State} (h : s.Stuck) :
    ∃ w rest i, s.port = w :: rest ∧ decodeHost w = .instr i ∧ accepted i s = false := by
  obtain ⟨-, -, hd, w, rest, hp, ⟨j, hw⟩ | ⟨j, hw⟩⟩ := h
  · exact ⟨w, rest, .rdh j, hp, hw, hd⟩
  · exact ⟨w, rest, .rddig j, hp, hw, hd⟩

/-- A stuck state steps by HALT (R130, log 8). -/
theorem State.Stuck.step {s : State} (h : s.Stuck) : Machine.step s = .next s.nextInstant := by
  obtain ⟨w, rest, i, hp, hw, hheld⟩ := h.pending
  obtain ⟨hr, h0, -, -⟩ := h
  have hu : decodeSeq s.seq = .instr .halt := by rw [h0]; exact decodeSeq_halt
  exact stepRunsTheSequencer s .halt (s.resetPin_of_nil hr) hu (.inr ⟨w, rest, i, hp, hw, .inl hheld⟩)

/-- With no reset to come an instant changes the model's own fields only. -/
theorem nextInstant_of_no_resets {s : State} (hr : s.resets = []) :
    s.nextInstant = { s with hostFirst := s.nextInstant.hostFirst, tick := s.nextInstant.tick } := by
  have hres : s.nextInstant.resets = s.resets := by simp [hr]
  rw [← hres]
  rfl

/-- Settles O41: the pending read is no final state's, and the instant that passes keeps every field that makes the
state stuck. -/
theorem digestReadWithoutAHashIsStuck : Obligations.DigestReadWithoutAHashIsStuck := by
  intro s h
  obtain ⟨hr, h0, hd, hpending⟩ := id h
  have hstuck : s.nextInstant.Stuck := ⟨by simp [hr], h0, hd, hpending⟩
  refine ⟨?_, s.nextInstant, h.step, hstuck, nextInstant_of_no_resets hr⟩
  rintro ⟨-, hidle, -⟩
  obtain ⟨w, rest, hp, -⟩ := hpending
  simp [hidle] at hp

end Sys2Proof.Machine
end

section
/-!
PROOFS. The two agents at one instant (R220, R236, R243): in a busy state the host is accepted with NOP or RDSTAT only,
and what either writes no micro-operation reads. Settles O48.
-/
namespace Sys2Proof.Machine

open Sys2Proof

/-- Outside phase HALT the table accepts NOP and RDSTAT only (R229). -/
theorem nop_or_rdstat_of_busy {i : Instr} {s : State} (hs : s.WellFormed) (hseq : s.seq ≠ 0x00)
    (hacc : accepted i s = true) : i = .nop ∨ i = .rdstat := by
  have hentry := (acceptEntry_iff hs i).2 hacc
  cases i
  case nop => exact .inl rfl
  case rdstat => exact .inr rfl
  case wrlen | wrmsg | start => exact absurd hentry hseq
  case rdh | rddig => exact absurd hentry.1 hseq
  all_goals cases hentry

/-- NOP and RDSTAT only leave the port and set HRES, in every state (R221, R225). -/
theorem exec_nop_or_rdstat {i : Instr} (hi : i = .nop ∨ i = .rdstat) (s : State) :
    exec i s = .next (s.accept (hostResult i s)) := by
  rcases hi with rfl | rfl
  · exact exec_nop s
  · exact exec_rdstat s

section
variable {u : Instr} {s t : State} (result : Option Word)

/-- What an accepted operation leaves at the port and in HRES no micro-operation reads or writes (R20, R236). -/
theorem exec_sequencer_accept_next (hu : u.agent = .sequencer) (h : exec u s = .next t) :
    exec u (s.accept result) = .next (t.accept result) := by
  rcases exec_sequencer_next hu h with ⟨rfl, rfl⟩ | ⟨rfl, block, hblock, rfl⟩ | ⟨rfl, hmore, rfl⟩ | ⟨rfl, hlast, rfl⟩ |
    ⟨r, n, rfl, rfl⟩
  · rfl
  · exact exec_ldblk_of_block hblock
  · exact (exec_feed _).trans (congrArg _ (if_pos hmore))
  · exact (exec_feed _).trans (congrArg _ (if_neg hlast.not_gt))
  · exact exec_stepInstr r n _

/-- Nor does it matter to the fault of LDBLK, the one micro-operation that can fault (R264). -/
theorem exec_sequencer_accept_fault {f : Fault} (hu : u.agent = .sequencer) (h : exec u s = .fault f) :
    exec u (s.accept result) = .fault f := by
  rcases sequencer_cases u hu with rfl | rfl | rfl | ⟨r, n, rfl⟩
  · cases h
  · rw [exec_ldblk_fault_iff] at h ⊢
    exact h
  · rw [exec_feed] at h; cases h
  · rw [exec_stepInstr] at h; cases h

end

/-- Settles O48: the host's operation is NOP or RDSTAT, and the micro-operation does the same before it and after it. -/
theorem bothOrdersAgree : Obligations.BothOrdersAgree := by
  intro s u i hs hseq hdec _ hacc
  have hu := agent_of_decodeSeq hdec
  have hi := nop_or_rdstat_of_busy hs hseq hacc
  refine ⟨_, exec_nop_or_rdstat hi s, fun f => exec_sequencer_accept_fault _ hu, fun t ht => ?_⟩
  refine ⟨_, _, exec_sequencer_accept_next _ hu ht, exec_nop_or_rdstat hi t, rfl, ?_⟩
  rintro rfl
  rfl

end Sys2Proof.Machine
end

section
/-!
PROOFS. A reset with nothing issued after it and no other reset to come (R270): it leaves a final state, and a final state
only waits. Settles O39.
-/
namespace Sys2Proof.Machine

open Sys2Proof Sys2Proof.Spec

/-- A final state steps by HALT (R130, log 8). -/
theorem State.Final.step {s : State} (h : s.Final) : Machine.step s = .next s.nextInstant := by
  obtain ⟨hr, hp, h0⟩ := h
  have hu : decodeSeq s.seq = .instr .halt := by rw [h0]; exact decodeSeq_halt
  exact step_of_idle_port (s.resetPin_of_nil hr) hp hu rfl

theorem State.Final.nextInstant {s : State} (h : s.Final) : s.nextInstant.Final := by
  obtain ⟨hr, hp, h0⟩ := h
  exact ⟨by simp [hr], hp, h0⟩

/-- However long a run goes on from a final state, it changes the model's own fields only. -/
theorem State.Final.run {s : State} (h : s.Final) (k : Nat) :
    ∃ u, run k s = .next u ∧ u = { s with hostFirst := u.hostFirst, tick := u.tick } := by
  induction k generalizing s with
  | zero => exact ⟨s, rfl, rfl⟩
  | succ k ih =>
    obtain ⟨u, hrun, hu⟩ := ih h.nextInstant
    refine ⟨u, (run_succ h.step k).trans hrun, hu.trans ?_⟩
    rw [nextInstant_of_no_resets h.1]

/-- Settles O39: with no operation and no reset left the state that the reset leaves is final. -/
theorem resetDropsWhatIsPending : Obligations.ResetDropsWhatIsPending := by
  intro s r rest hr hwait
  have hpin : s.resetPin = true := by simp [s.resetPin_of_cons hr, hwait]
  have hrest : s.takeReset.drawOrder.resets = rest := by simp [hr]
  refine ⟨s.takeReset.drawOrder, step_of_reset hpin, s.portAfterReset_of_cons hr, hrest, fun hport hnone k => ?_⟩
  have hfinal : s.takeReset.drawOrder.Final := ⟨hrest.trans hnone, hport, rfl⟩
  obtain ⟨u, hrun, hu⟩ := hfinal.run k
  exact ⟨u, hrun, congrArg State.seq hu, congrArg State.done hu, (congrArg State.h hu :)⟩

end Sys2Proof.Machine
end
